-- ==== Sys2Proof/Word.lean ====
section
/-! DEFINITION. Word types of TEFE (spec 00_scope.md R11, R12): bytes, 16-bit data registers and
command words, and the 32-bit width at which the host sees every register. All quantities are unsigned. -/

namespace Sys2Proof

/-- A byte, "also octet" (R11). -/
abbrev Byte := BitVec 8

/-- A 16-bit quantity: a data register (R21) or a command word (R74). -/
abbrev Half := BitVec 16

/-- The host's view of a register: "Each is 32 bits wide as seen by the host" (R24). -/
abbrev Word := BitVec 32

end Sys2Proof
end

