-- ==== Sys2Proof/Syntax.lean ====
section
/-! DEFINITION. The command set (spec 30_encoding.md R75, R76): one constructor per row of
spec/opcode_table.json. Where the spec's checklist says "instruction" it means one command (R3). -/

namespace Sys2Proof

/-- The 18 commands. The only explicit operand is an unsigned byte (R75 (a)); the mode bits `A` and `R` of
`BUILD` (R75 (b)) select the row; "All other operands are implicit" (R75). -/
inductive Instr where
  /-- `NOP` (R190) -/
  | nop
  /-- `ERRCLR` (R191) -/
  | errclr
  /-- `SRST` (R192) -/
  | srst
  /-- `ICLR` (R90) -/
  | iclr
  /-- `IPUSH imm8` (R91) -/
  | ipush (imm8 : Byte)
  /-- `IH2B` (R97) -/
  | ih2b
  /-- `CRCCLR` (R112) -/
  | crcclr
  /-- `CRCADD imm8` (R113) -/
  | crcadd (imm8 : Byte)
  /-- `CRCHEX` (R114) -/
  | crchex
  /-- `CRCRAW` (R115) -/
  | crcraw
  /-- `BLDR.H`: replace, hex mode (R135) -/
  | bldrH
  /-- `BLDA.H`: append, hex mode (R136) -/
  | bldaH
  /-- `BLDR.R`: replace, raw mode (R137) -/
  | bldrR
  /-- `BLDA.R`: append, raw mode (R138) -/
  | bldaR
  /-- `LCLR` (R152) -/
  | lclr
  /-- `PXSCAN` (R167) -/
  | pxscan
  /-- `PXPACK` (R173) -/
  | pxpack
  /-- `PXEMIT` (R178) -/
  | pxemit
deriving DecidableEq, Repr

end Sys2Proof
end

