-- ==== Sys2Proof/Decode.lean ====
section
/-! DEFINITION. The command word (spec 30_encoding.md R74 to R78): decoder, total on every 16-bit word and
rejecting by name; encoder; and the opcode map as match/mask rows. -/

namespace Sys2Proof

/-- `op = w[15:8]` (R74). -/
def opOf (w : Half) : Byte := w.extractLsb' 8 8

/-- `arg = w[7:0]` (R74). -/
def argOf (w : Half) : Byte := w.extractLsb' 0 8

/-- Mode bit `A = w[0]`: 0 replace, 1 append (R75 (b)). -/
def modeAppend (w : Half) : Bool := w.getLsbD 0

/-- Mode bit `R = w[1]`: 0 hex mode, 1 raw mode (R75 (b)). -/
def modeRaw (w : Half) : Bool := w.getLsbD 1

/-- Why a word is illegal (R78). -/
inductive Reject where
  /-- `op` is none of the 15 operation codes. -/
  | undefinedOp (op : Byte)
  /-- "a non-zero `arg` on a command whose operand is none" -/
  | argNotZero (arg : Byte)
  /-- "`op = 0x30` with any of `arg[7:2]` set" -/
  | modeBitsNotZero (arg : Byte)
deriving DecidableEq, Repr

/-- Operand form (c) of R75: `arg` must be 0x00. -/
def noOperand (w : Half) (i : Instr) : Except Reject Instr :=
  if argOf w = 0 then .ok i else .error (.argNotZero (argOf w))

/-- Operand form (b) of R75: the mode bits of `BUILD`; `w[7:2]` must be zero. -/
def decodeBuild (w : Half) : Except Reject Instr :=
  if w.extractLsb' 2 6 = 0 then
    match modeAppend w, modeRaw w with
    | false, false => .ok .bldrH
    | true, false => .ok .bldaH
    | false, true => .ok .bldrR
    | true, true => .ok .bldaR
  else .error (.modeBitsNotZero (argOf w))

/-- The decoder of R76 and R78: every 16-bit word is one command or is rejected by name. -/
def decode (w : Half) : Except Reject Instr :=
  match (opOf w).toNat with
  | 0x00 => noOperand w .nop
  | 0x01 => noOperand w .errclr
  | 0x02 => noOperand w .srst
  | 0x10 => noOperand w .iclr
  | 0x11 => .ok (.ipush (argOf w))
  | 0x12 => noOperand w .ih2b
  | 0x20 => noOperand w .crcclr
  | 0x21 => .ok (.crcadd (argOf w))
  | 0x22 => noOperand w .crchex
  | 0x23 => noOperand w .crcraw
  | 0x30 => decodeBuild w
  | 0x31 => noOperand w .lclr
  | 0x40 => noOperand w .pxscan
  | 0x41 => noOperand w .pxpack
  | 0x42 => noOperand w .pxemit
  | _ => .error (.undefinedOp (opOf w))

/-- A command word from its two fields (R74). -/
def commandWord (op arg : Byte) : Half := op ++ arg

/-- The word of a command, from the "word" column of R76. -/
def encode : Instr → Half
  | .nop => commandWord 0x00 0x00
  | .errclr => commandWord 0x01 0x00
  | .srst => commandWord 0x02 0x00
  | .iclr => commandWord 0x10 0x00
  | .ipush imm8 => commandWord 0x11 imm8
  | .ih2b => commandWord 0x12 0x00
  | .crcclr => commandWord 0x20 0x00
  | .crcadd imm8 => commandWord 0x21 imm8
  | .crchex => commandWord 0x22 0x00
  | .crcraw => commandWord 0x23 0x00
  | .bldrH => commandWord 0x30 0x00
  | .bldaH => commandWord 0x30 0x01
  | .bldrR => commandWord 0x30 0x02
  | .bldaR => commandWord 0x30 0x03
  | .lclr => commandWord 0x31 0x00
  | .pxscan => commandWord 0x40 0x00
  | .pxpack => commandWord 0x41 0x00
  | .pxemit => commandWord 0x42 0x00

/-- A row of the opcode map: "a word `w` selects the row when `w AND mask = match`" (R76). -/
structure OpcodeRow where
  mnemonic : String
  matchBits : Half
  mask : Half
deriving DecidableEq, Repr

/-- The row of R76 that a command belongs to, its match and mask copied from the table. -/
def opcodeRow : Instr → OpcodeRow
  | .nop => ⟨"NOP", 0x0000, 0xFFFF⟩
  | .errclr => ⟨"ERRCLR", 0x0100, 0xFFFF⟩
  | .srst => ⟨"SRST", 0x0200, 0xFFFF⟩
  | .iclr => ⟨"ICLR", 0x1000, 0xFFFF⟩
  | .ipush _ => ⟨"IPUSH", 0x1100, 0xFF00⟩
  | .ih2b => ⟨"IH2B", 0x1200, 0xFFFF⟩
  | .crcclr => ⟨"CRCCLR", 0x2000, 0xFFFF⟩
  | .crcadd _ => ⟨"CRCADD", 0x2100, 0xFF00⟩
  | .crchex => ⟨"CRCHEX", 0x2200, 0xFFFF⟩
  | .crcraw => ⟨"CRCRAW", 0x2300, 0xFFFF⟩
  | .bldrH => ⟨"BLDR.H", 0x3000, 0xFFFF⟩
  | .bldaH => ⟨"BLDA.H", 0x3001, 0xFFFF⟩
  | .bldrR => ⟨"BLDR.R", 0x3002, 0xFFFF⟩
  | .bldaR => ⟨"BLDA.R", 0x3003, 0xFFFF⟩
  | .lclr => ⟨"LCLR", 0x3100, 0xFFFF⟩
  | .pxscan => ⟨"PXSCAN", 0x4000, 0xFFFF⟩
  | .pxpack => ⟨"PXPACK", 0x4100, 0xFFFF⟩
  | .pxemit => ⟨"PXEMIT", 0x4200, 0xFFFF⟩

/-- "a word `w` selects the row when `w AND mask = match`" (R76). -/
def OpcodeRow.selects (r : OpcodeRow) (w : Half) : Bool := w &&& r.mask == r.matchBits

/-- The whole table of R76, one row per command. -/
def opcodeTable : List OpcodeRow :=
  [opcodeRow .nop, opcodeRow .errclr, opcodeRow .srst] ++
  [opcodeRow .iclr, opcodeRow (.ipush 0), opcodeRow .ih2b] ++
  [opcodeRow .crcclr, opcodeRow (.crcadd 0), opcodeRow .crchex, opcodeRow .crcraw] ++
  [opcodeRow .bldrH, opcodeRow .bldaH, opcodeRow .bldrR, opcodeRow .bldaR] ++
  [opcodeRow .lclr, opcodeRow .pxscan, opcodeRow .pxpack, opcodeRow .pxemit]

/-- The decoder on a word numbered as spec/opcode_table.json numbers it: every command is one 16-bit word
(R74), and a bit above `nbits` is 0. -/
def decodeTableWord (nbits w : Nat) : Option Instr :=
  match decode (BitVec.ofNat 16 (w % 2 ^ nbits)) with
  | .ok i => some i
  | .error _ => none

end Sys2Proof
end

