-- ==== Sys2Proof/Config.lean ====
section
/-! DEFINITION. What one implementation of TEFE fixes at build time (spec 00_scope.md R9, 93 U5 and U15)
and the free values, which no rule of the spec fixes (93 U2, log entries 3 and 4). -/

namespace Sys2Proof

/-- The build-time parameters. They "are fixed at build time of the block, not written at run time" (R263):
no step changes them. `State` carries them, so that a statement over every state speaks of every
implementation (log entry 1). -/
structure Config where
  /-- `CONTENT_MAX`: greatest CONTENT length in bytes, 1 to 65533 (R9, R129). -/
  contentMax : Nat
  /-- `IBUF_MAX`: capacity of IBUF in octets, at least 2048 (R9, R27). -/
  ibufMax : Nat
  /-- `OML_MAX_CHUNKS`: capacity of the list in chunks, at least 1; `none` is "unbounded" (R9, R153). -/
  omlMaxChunks : Option Nat
  /-- `REG_BASE`: where the platform places register number 0 (R9, R24, R63). -/
  regBase : Nat
  /-- `PACK_MSB_FIRST` of U5: `false` is decision D21, `true` the other reading of R177. -/
  packMsbFirst : Bool
deriving DecidableEq, Repr

/-- The defaults of R9 and U5. `OML_MAX_CHUNKS` and `REG_BASE` are OPEN in the spec: unbounded (the reading
of the test vectors) and 0 are DESIGN CHOICEs (log entry 1). -/
def Config.standard : Config where
  contentMax := 65533
  ibufMax := 131066
  omlMaxChunks := none
  regBase := 0
  packMsbFirst := false

/-- FREE VALUE: what the host reads from a register other than `STATUS` and `CMD` while `BUSY = 1`
(R32, R57 (d), R265, U2: "any value (of the register's width)"). Its argument is the counter
`State.freeReads`, so that two such reads need not agree (log entry 3). -/
opaque Config.freeRead : Nat → Word

/-- FREE VALUE: what a 32-bit register holds when the number the spec puts there does not fit 32 bits
(R11: "a register write requires `v` to fit the register's width"; R9 gives `IBUF_MAX` and
`OML_MAX_CHUNKS` no upper bound). Its argument is that number (log entry 4). -/
opaque Config.wideValue : Nat → Word

end Sys2Proof
end

