-- ==== Sys2Proof/Machine/State.lean ====
section
/-! DEFINITION. The architectural state of TEFE (spec 10_state.md R20 to R37), the host's pending register
accesses, and the reasons a step can stop. Plain data only. -/

namespace Sys2Proof.Machine

/-- One palette entry or pixel: "a 24-bit colour stored as three bytes `[c0, c1, c2]` in the order the host
supplied them" (R28, R165). No channel is ever interpreted. -/
structure Color where
  c0 : Byte
  c1 : Byte
  c2 : Byte
deriving DecidableEq, Repr

/-- The fault codes of R231. -/
inductive ErrCode where
  /-- 0x01 `E_ILLCMD` -/
  | illcmd
  /-- 0x02 `E_IFULL` -/
  | ifull
  /-- 0x03 `E_ODDHEX` -/
  | oddhex
  /-- 0x04 `E_BADHEX` -/
  | badhex
  /-- 0x05 `E_TOOLONG` -/
  | toolong
  /-- 0x06 `E_LISTFULL` -/
  | listfull
  /-- 0x07 `E_PIXLEN` -/
  | pixlen
  /-- 0x08 `E_NOSCAN` -/
  | noscan
  /-- 0x09 `E_NOPACK` -/
  | nopack
deriving DecidableEq, Repr

/-- The five buffer spaces of R33 and R50; a chunk of `OML` is addressed by its list position. -/
inductive Space where
  | ibuf
  | oml (chunk : Nat)
  | pal
  | idx
  | pkbuf
deriving DecidableEq, Repr

/-- How the host names a register: by its number (R24) or, on a byte-addressed platform, by its address
`REG_BASE + 4k` (R24, R63). -/
inductive RegPort where
  | number (k : Nat)
  | address (a : Nat)
deriving DecidableEq, Repr

/-- What the outside world can do to TEFE: write a register, read a register (the host, R7 (a), or the
transport collaborator, which only reads, R7 (c)), or assert the reset input (R260). -/
inductive HostOp where
  | write (port : RegPort) (value : Word)
  | read (port : RegPort)
  | reset
deriving DecidableEq, Repr

/-- One pending access. With `overlap = false` it waits for `STATUS.BUSY = 0`, as R264 and R265 ask of a host;
with `overlap = true` it happens at once, also while a command runs (polling `STATUS`, U1, U2, R261). -/
structure HostEvent where
  overlap : Bool
  op : HostOp
deriving DecidableEq, Repr

/-- The state. A buffer is "a list of exactly its valid length" (U11, R36), so `ILEN`, `OCNT`, `PALSIZE` and
`PKLEN` are the lengths of `ibuf`, `oml`, `pal` and `pkbuf`, and storage beyond them holds no value. -/
structure State where
  /-- `CMD`, the command latch (R24 no. 0, R25) -/
  cmd : Half
  /-- `STATUS.BUSY` (R23 bit 0) -/
  busy : Bool
  /-- `STATUS.ERR` (R23 bit 1) -/
  err : Bool
  /-- `ERRCODE` (R24 no. 2, R26) -/
  errcode : Byte
  /-- `ERRINFO` (R24 no. 3, R26) -/
  errinfo : Word
  /-- `ACC`, the checksum accumulator (R21, R24 no. 4) -/
  acc : Half
  /-- `LEN`, the LENGTH field of the frame last built (R21, R24 no. 5) -/
  len : Half
  /-- `IBUF` with `ILEN` (R27, R24 no. 6) -/
  ibuf : List Byte
  /-- `OML` with `OCNT`, the Outgoing Message List (R30, R24 no. 7) -/
  oml : List (List Byte)
  /-- `PAL` with `PALSIZE`, the palette (R28, R24 no. 8) -/
  pal : List Color
  /-- `IDX`, the pixel index grid; no cell holds a value until a scan is done (R29, R36) -/
  idx : List Byte
  /-- `BITW` (R31, R24 no. 9) -/
  bitw : BitVec 4
  /-- `PKBUF` with `PKLEN`, the packed pixel bytes (R31, R24 no. 10) -/
  pkbuf : List Byte
  /-- `WSEL` (R32, R24 no. 11) -/
  wsel : BitVec 3
  /-- `WCHUNK` (R32, R24 no. 12) -/
  wchunk : Word
  /-- `WADDR` (R32, R24 no. 13) -/
  waddr : Word
  /-- The build-time parameters (R9); no step changes them (log entry 1). -/
  cfg : Config
  /-- MODEL'S OWN: the accesses the outside world has still to make, oldest first (R35, log entry 2). -/
  hostQueue : List HostEvent
  /-- MODEL'S OWN: the value the last register read returned to its reader (log entry 2). -/
  readData : Word
  /-- MODEL'S OWN: how many register reads were made; argument of `Config.freeRead` (log entry 3). -/
  freeReads : Nat
deriving DecidableEq, Repr

/-- The state after reset: the "reset" column of R24 and R37; all buffers empty by their lengths. The
parameters are the standard ones and nothing is pending from the host (log entries 1, 2, 3). -/
def State.reset : State where
  cmd := 0x0000
  busy := false
  err := false
  errcode := 0x00
  errinfo := 0
  acc := 0x0000
  len := 0x0000
  ibuf := []
  oml := []
  pal := []
  idx := []
  bitw := 0
  pkbuf := []
  wsel := 0
  wchunk := 0
  waddr := 0
  cfg := Config.standard
  hostQueue := []
  readData := 0
  freeReads := 0

/-- A stop of the machine. The faults of R231 are NOT here: taking one is a next state (R234). -/
inductive Fault where
  /-- U1: a host wrote `CMD` while `STATUS.BUSY = 1`, "undefined behaviour" (R25); a model that can express it
  "is stuck there". Raised by the host's write access, by no command. Safe: nothing is claimed after it. -/
  | cmdWriteWhileBusy
deriving DecidableEq, Repr

/-- What the model declines to give a meaning to. -/
inductive Refusal where
  /-- An instruction whose meaning is not written yet; no arm of `exec` answers it. Safe. -/
  | notModelled (mnemonic : String)
  /-- U6: an access to an address below `REG_BASE` or between two registers, "outside this spec (the platform's
  bus decides)" (R54). Raised by a host access, by no command. Safe. -/
  | noRegisterAtAddress
deriving DecidableEq, Repr

/-- What one step, one command or one host access answers. -/
abbrev Result := Host.Outcome State Fault Refusal

end Sys2Proof.Machine
end

