-- ==== Sys2Proof/Machine/Ops.lean ====
section
/-! DEFINITION. The operations every command is written over: lengths, the buffer spaces and their accesses,
the fault entry and the way out of the error state, completion, and the error-stop (spec 00 R15, 10 R33,
20 R56, 60 R231 to R237). -/

namespace Sys2Proof.Machine

/-- `ILEN`: number of octets in IBUF (R27). -/
def State.ilen (s : State) : Nat := s.ibuf.length

/-- `OCNT`: number of chunks in OML (R30). -/
def State.ocnt (s : State) : Nat := s.oml.length

/-- `PALSIZE`: number of palette entries (R28). -/
def State.palsize (s : State) : Nat := s.pal.length

/-- `PKLEN`: number of packed bytes (R31). -/
def State.pklen (s : State) : Nat := s.pkbuf.length

/-- A colour as its three bytes in stored order (R28). -/
def Color.bytes (c : Color) : List Byte := [c.c0, c.c1, c.c2]

/-- The bytes of a buffer space up to its valid length (R33); an absent chunk has none (R32, R36). -/
def State.bytes (s : State) : Space → List Byte
  | .ibuf => s.ibuf
  | .oml j => s.oml.getD j []
  | .pal => s.pal.flatMap Color.bytes
  | .idx => s.idx
  | .pkbuf => s.pkbuf

/-- The byte at offset `a` of a space; `none` at and beyond the valid length: such an element holds "no
value" (R36). -/
def State.byteAt (s : State) (sp : Space) (a : Nat) : Option Byte := (s.bytes sp)[a]?

/-- `MemRead(space, addr, n)` (R15), defined within the valid length only (R66). -/
def State.memRead (s : State) (sp : Space) (addr n : Nat) : Option (List Byte) :=
  if addr + n ≤ (s.bytes sp).length then some (((s.bytes sp).drop addr).take n) else none

/-- `MemWrite(IBUF, addr, n, v)` (R15) with `n` the length of `v`: the elements from `addr` on are replaced,
the others stay. -/
def bufWrite (buf : List Byte) (addr : Nat) (v : List Byte) : List Byte :=
  buf.take addr ++ v ++ buf.drop (addr + v.length)

/-- The "append" addressing of R66 (a): write at offset `ILEN` and upward, then raise `ILEN`. -/
def State.ibufAppend (s : State) (v : List Byte) : State :=
  { s with ibuf := bufWrite s.ibuf s.ilen v }

/-- The canonical form of the buffers (R36): each is a list of exactly its valid length, and the two whose validity
another object tells hold nothing when that object says so: `IDX` without a scan (R29), `PKBUF` without a
pack (R31). So equal contents are equal data, and an element without a value is not in the state. -/
def Memory.wf (s : State) : Bool :=
  (!s.pal.isEmpty || s.idx.isEmpty) && (decide (s.bitw = 0) == s.pkbuf.isEmpty)

/-- The code column of R231. -/
def ErrCode.code : ErrCode → Byte
  | .illcmd => 0x01
  | .ifull => 0x02
  | .oddhex => 0x03
  | .badhex => 0x04
  | .toolong => 0x05
  | .listfull => 0x06
  | .pixlen => 0x07
  | .noscan => 0x08
  | .nopack => 0x09

/-- A number as the content of a 32-bit register. R11 requires it to fit; where it does not, the content is a
free value of that number (log entry 4). -/
def word32 (n : Nat) : Word :=
  if n < 2 ^ 32 then BitVec.ofNat 32 n else Config.wideValue n

/-- A fault being raised: its code and its detail value (R231). -/
abbrev Raise := ErrCode × Nat

/-- The fault entry `raise Fault(code, info)` of R234: `ERR`, `ERRCODE`, `ERRINFO` and nothing else. -/
def raiseFault (r : Raise) (s : State) : State :=
  { s with err := true, errcode := r.1.code, errinfo := word32 r.2 }

/-- Leaving the error state (R191, R237): the three error fields are cleared, nothing is restored. -/
def leaveError (s : State) : State :=
  { s with err := false, errcode := 0x00, errinfo := 0 }

/-- Completion of a command: `STATUS.BUSY <- 0` (R23, R56). -/
def complete (s : State) : State := { s with busy := false }

/-- The state a command leaves: its writes "all together", or on a fault the fault entry alone (R15, R56, R234). -/
def settle (s : State) : Except Raise State → State
  | .ok t => t
  | .error r => raiseFault r s

/-- A command under the error-stop of R236: with `ERR = 1` it is ignored, whatever it would have done; otherwise
it settles; in both cases it completes. -/
def command (s : State) (effect : Except Raise State) : Result :=
  .next (complete (if s.err then s else settle s effect))

/-- A command that is "performed also while `ERR = 1`" (R191, R192) and cannot fault. -/
def alwaysCommand (t : State) : Result := .next (complete t)

end Sys2Proof.Machine
end

