-- ==== Sys2Proof/Machine/Operands.lean ====
section
/-! DEFINITION. The operand forms: hex digits (spec 00 R16 to R18) and the two readings of IBUF, hex mode and raw
mode (40 R93 to R95), with the checks each makes. -/

namespace Sys2Proof.Machine

/-- `hexval`: the value of a hex digit given by its ASCII code, `none` for every other octet (R16, U12). -/
def hexval (c : Byte) : Option Nat :=
  if 0x30 ≤ c.toNat ∧ c.toNat ≤ 0x39 then some (c.toNat - 0x30)
  else if 0x41 ≤ c.toNat ∧ c.toNat ≤ 0x46 then some (c.toNat - 0x41 + 10)
  else if 0x61 ≤ c.toNat ∧ c.toNat ≤ 0x66 then some (c.toNat - 0x61 + 10)
  else none

/-- "A hex digit is one of the 22 characters" (R16). -/
def isHexDigit (c : Byte) : Bool := (hexval c).isSome

/-- `hex2b` (R17): two characters at a time, the first is the high nibble; `none` outside its domain, the
even-length hex strings. -/
def hex2b : List Byte → Option (List Byte)
  | [] => some []
  | [_] => none
  | hi :: lo :: rest =>
    match hexval hi, hexval lo, hex2b rest with
    | some h, some l, some bs => some (BitVec.ofNat 8 (16 * h + l) :: bs)
    | _, _, _ => none

/-- `hexchar`: the ASCII code of the `n`-th character of `0123456789abcdef` (R18). -/
def hexchar (n : Nat) : Byte :=
  if n < 10 then BitVec.ofNat 8 (0x30 + n) else BitVec.ofNat 8 (0x61 + (n - 10))

/-- `b2hex` (R18): two lowercase characters a byte, high nibble first. -/
def b2hex (bs : List Byte) : List Byte :=
  bs.flatMap fun b => [hexchar (b.toNat / 16), hexchar (b.toNat % 16)]

/-- What `hexcheck` finds (R94); with `OK` goes the content it stands for. -/
inductive HexCheck where
  | odd
  | bad (i : Nat)
  | ok (content : List Byte)
deriving DecidableEq, Repr

/-- `hexcheck` (R94): odd length first, then the least index of an octet that is not a hex digit. -/
def hexcheck (s : List Byte) : HexCheck :=
  if s.length % 2 = 1 then .odd
  else
    match hex2b s with
    | some content => .ok content
    | none => .bad (s.findIdx fun c => !isHexDigit c)

/-- IBUF read in hex mode by `IH2B` and `CRCHEX`: the content, or the fault of R95. -/
def hexOperand (s : State) : Except Raise (List Byte) :=
  match hexcheck s.ibuf with
  | .odd => .error (.oddhex, s.ilen)
  | .bad i => .error (.badhex, i)
  | .ok content => .ok content

/-- CONTENT of a hex-mode `BUILD`, its checks in the order of R130 and R233: length parity, content length,
digits. -/
def hexContent (s : State) : Except Raise (List Byte) :=
  if s.ilen % 2 = 1 then .error (.oddhex, s.ilen)
  else if s.cfg.contentMax < s.ilen / 2 then .error (.toolong, s.ilen / 2)
  else hexOperand s

/-- CONTENT of a raw-mode `BUILD`: the octets themselves, checked for length only (R93, R130). -/
def rawContent (s : State) : Except Raise (List Byte) :=
  if s.cfg.contentMax < s.ilen then .error (.toolong, s.ilen) else .ok s.ibuf

/-- The pixels of IBUF: cell `i` is the octets `3i`, `3i + 1`, `3i + 2` (R165), in scan order (R166). -/
def pixelCells : List Byte → List Color
  | c0 :: c1 :: c2 :: rest => ⟨c0, c1, c2⟩ :: pixelCells rest
  | _ => []

end Sys2Proof.Machine
end

