-- ==== Sys2Proof/Machine/Wire.lean ====
section
/-! DEFINITION. The wire format: little-endian fields and the byte sum (spec 00 R14, R19; 41 R110, R111), the Frame
(30 R70, 42 R125 to R127, R139) and its chunks (43 R145). -/

namespace Sys2Proof.Machine

/-- `PREFIX`, the first byte of a Frame (R8). -/
def framePrefix : Byte := 0x01

/-- `SUFFIX`, the last byte of a Frame (R8). -/
def frameSuffix : Byte := 0x02

/-- `CHUNK_BYTES`, the greatest chunk size (R8). -/
def chunkBytes : Nat := 666

/-- `le16(v) = [v mod 256, v div 256]` (R14). -/
def le16 (v : Nat) : List Byte := [BitVec.ofNat 8 (v % 256), BitVec.ofNat 8 (v / 256)]

/-- `unle16([a, b]) = a + 256 × b` (R14). -/
def unle16 (a b : Byte) : Nat := a.toNat + 256 * b.toNat

/-- `acc_step(a, b) = (a + b) mod 65536` (R111): no carry, no saturation. -/
def accStep (a : Half) (b : Byte) : Half := BitVec.ofNat 16 (a.toNat + b.toNat)

/-- `sum16`: the byte sum modulo 65536 (R19), which DOC0 calls CRC (R110). -/
def sum16 (bs : List Byte) : Half := BitVec.ofNat 16 (bs.map BitVec.toNat).sum

/-- LENGTH: "number of bytes in (CONTENT ‖ CRC)", `n + 2` (R126). -/
def frameLength (content : List Byte) : Nat := content.length + 2

/-- CRC: the sum over LENGTH and CONTENT, not over PREFIX, CRC or SUFFIX (R127). -/
def frameCrc (content : List Byte) : Half := sum16 (le16 (frameLength content) ++ content)

/-- `frame(c)` (R125, R70): no escaping of any kind (R71). -/
def frame (content : List Byte) : List Byte :=
  [framePrefix] ++ le16 (frameLength content) ++ content ++ le16 (frameCrc content).toNat ++ [frameSuffix]

/-- `k` pieces of `m` elements from the front of a sequence, the last ones short or empty when it runs out. -/
def cut {α : Type} (m : Nat) : Nat → List α → List (List α)
  | 0, _ => []
  | k + 1, xs => xs.take m :: cut m k (xs.drop m)

/-- Number of chunks of a byte sequence of length `F`: `ceil(F / 666)` (R145). -/
def chunkCount (flen : Nat) : Nat := (flen + (chunkBytes - 1)) / chunkBytes

/-- `chunks(f)` (R145): greedy, every chunk but the last of exactly 666 bytes. -/
def chunks (f : List Byte) : List (List Byte) := cut chunkBytes (chunkCount f.length) f

/-- `CHUNK_HEX`: "the same in hex characters, `2 × CHUNK_BYTES`" (R8). -/
def chunkHex : Nat := 2 * chunkBytes

/-- DOC0's chunking of a frame's hex text, pieces of at most 1332 characters (R149). -/
def textChunks (text : List Byte) : List (List Byte) := cut chunkHex ((text.length + (chunkHex - 1)) / chunkHex) text

/-- `deframe` (R139): "a property for testing; TEFE has no receive path". -/
def deframe (f : List Byte) : Option (List Byte) :=
  match f with
  | p :: l0 :: l1 :: _ =>
    let length := unle16 l0 l1
    let content := (f.drop 3).take (length - 2)
    let crc := (f.drop (length + 1)).take 2
    if 7 ≤ f.length ∧ p = framePrefix ∧ 3 ≤ length ∧ f.length = length + 4 ∧
        f[length + 3]? = some frameSuffix ∧
        crc = le16 (sum16 ((f.drop 1).take length)).toNat then
      some content
    else none
  | _ => none

end Sys2Proof.Machine
end

