-- ==== Sys2Proof/Machine/Crc.lean ====
section
/-! DEFINITION. CRC accumulator: `CRCCLR`, `CRCADD`, `CRCHEX`, `CRCRAW` (spec 41 R112 to R115). -/

namespace Sys2Proof.Machine

/-- `CRCCLR` (R112). -/
def execCrcclr (s : State) : Result := command s (.ok { s with acc := 0 })

/-- `CRCADD imm8` (R113): "Only `CRCADD` reads the old `ACC`" (R116). -/
def execCrcadd (imm8 : Byte) (s : State) : Result := command s (.ok { s with acc := accStep s.acc imm8 })

/-- `CRCHEX` (R114): checksum of IBUF read as a hex string, from zero. -/
def execCrchex (s : State) : Result :=
  command s
    (match hexOperand s with
     | .error r => .error r
     | .ok content => .ok { s with acc := sum16 content })

/-- `CRCRAW` (R115): checksum of IBUF's octets taken as bytes, from zero. -/
def execCrcraw (s : State) : Result := command s (.ok { s with acc := sum16 s.ibuf })

end Sys2Proof.Machine
end

