-- ==== Sys2Proof/Machine/FrameBuilder.lean ====
section
/-! DEFINITION. Frame builder: the shared `BUILD` operation (spec 42 R130 to R133) and the four commands
`BLDR.H`, `BLDA.H`, `BLDR.R`, `BLDA.R` (R135 to R138). -/

namespace Sys2Proof.Machine

/-- Can a list of `k` chunks be held? `OML_MAX_CHUNKS` unbounded holds any (R153). -/
def listHolds (c : Config) (k : Nat) : Bool :=
  match c.omlMaxChunks with
  | none => true
  | some m => decide (k ≤ m)

/-- What a `BUILD` with these contents writes when it builds a frame (R130, R132, R133): `LEN`, `ACC`, `OML`,
with `old` the chunks that stay in front. -/
def storeFrame (s : State) (old : List (List Byte)) (content : List Byte) : State :=
  { s with
    len := BitVec.ofNat 16 (frameLength content)
    acc := frameCrc content
    oml := old ++ chunks (frame content) }

/-- The capacity check and the writes of R130. -/
def placeFrame (s : State) (old : List (List Byte)) (content : List Byte) : Except Raise State :=
  let total := old.length + (chunks (frame content)).length
  if listHolds s.cfg total then .ok (storeFrame s old content) else .error (.listfull, total)

/-- CONTENT of a `BUILD` as its mode bit `R` says (R93, R130). -/
def buildContent (raw : Bool) (s : State) : Except Raise (List Byte) :=
  if raw then rawContent s else hexContent s

/-- `BUILD(A, R)` of R130: a no-op on an empty IBUF (R131), else CONTENT, frame, chunks, in the fault order
of R233. -/
def build (append raw : Bool) (s : State) : Except Raise State :=
  if s.ilen = 0 then .ok s
  else
    match buildContent raw s with
    | .error r => .error r
    | .ok content => placeFrame s (if append then s.oml else []) content

/-- `BLDR.H` (R135): replace, hex mode. -/
def execBldrH (s : State) : Result := command s (build false false s)

/-- `BLDA.H` (R136): append, hex mode. -/
def execBldaH (s : State) : Result := command s (build true false s)

/-- `BLDR.R` (R137): replace, raw mode. -/
def execBldrR (s : State) : Result := command s (build false true s)

/-- `BLDA.R` (R138): append, raw mode. -/
def execBldaR (s : State) : Result := command s (build true true s)

end Sys2Proof.Machine
end

