-- ==== Sys2Proof/Machine/InputBuffer.lean ====
section
/-! DEFINITION. Input buffer and hex-to-byte converter: `ICLR`, `IPUSH`, `IH2B` (spec 40 R90, R91, R97). -/

namespace Sys2Proof.Machine

/-- `ICLR` (R90): `ILEN <- 0`; the octets "now hold no value". -/
def execIclr (s : State) : Result := command s (.ok { s with ibuf := [] })

/-- `IPUSH imm8` (R91): append one octet, or `E_IFULL` with `ILEN` when the buffer is full. -/
def execIpush (imm8 : Byte) (s : State) : Result :=
  command s (if s.ilen = s.cfg.ibufMax then .error (.ifull, s.ilen) else .ok (s.ibufAppend [imm8]))

/-- `IH2B` (R97): convert IBUF from hex text to bytes, in place. -/
def execIh2b (s : State) : Result :=
  command s
    (match hexOperand s with
     | .error r => .error r
     | .ok content => .ok { s with ibuf := content })

end Sys2Proof.Machine
end

