-- ==== Sys2Proof/Machine/OutputList.lean ====
section
/-! DEFINITION. The Outgoing Message List: `LCLR` (spec 43 R152) and its two forms as DOC0 names them (R151). -/

namespace Sys2Proof.Machine

/-- `LCLR` (R152). -/
def execLclr (s : State) : Result := command s (.ok { s with oml := [] })

/-- `getMessageList()` (R151): the chunks as lowercase hex text. Reading does not consume (R64, R154). -/
def State.messageList (s : State) : List (List Byte) := s.oml.map b2hex

/-- "The derived raw-byte form for transmission" (R151). -/
def State.rawMessageList (s : State) : List (List Byte) := s.oml

end Sys2Proof.Machine
end

