-- ==== Sys2Proof/Machine/Palette.lean ====
section
/-! DEFINITION. Palette pixel encoder and index bit-packer: `PXSCAN`, `PXPACK`, `PXEMIT` (spec 44 R165 to R178). -/

namespace Sys2Proof.Machine

/-- `GRID_W` (R8). -/
def gridWidth : Nat := 16

/-- `GRID_H` (R8). -/
def gridHeight : Nat := 16

/-- `GRID_CELLS = GRID_W × GRID_H` (R8). -/
def gridCells : Nat := gridWidth * gridHeight

/-- One cell of the scan (R167): reuse the index of a colour already seen, else enter it as the next one. -/
def scanStep (found : List Color × List Byte) (c : Color) : List Color × List Byte :=
  match found.1.findIdx? (· == c) with
  | some k => (found.1, found.2 ++ [BitVec.ofNat 8 k])
  | none => (found.1 ++ [c], found.2 ++ [BitVec.ofNat 8 found.1.length])

/-- The scan of the cells in scan order (R166, R167): palette and index grid. -/
def scan (cells : List Color) : List Color × List Byte := cells.foldl scanStep ([], [])

/-- The writes of `PXSCAN`: "the old pack is no longer valid" (R167). -/
def storeScan (s : State) (found : List Color × List Byte) : State :=
  { s with pal := found.1, idx := found.2, bitw := 0, pkbuf := [] }

/-- `PXSCAN` (R167): 768 octets, or `E_PIXLEN` with `ILEN`. -/
def execPxscan (s : State) : Result :=
  command s
    (if s.ilen = 3 * gridCells then .ok (storeScan s (scan (pixelCells s.ibuf))) else .error (.pixlen, s.ilen))

/-- `bitw(p)` for `1 ≤ p ≤ 256`: the least `w ≥ 1` with `2^w ≥ p` (R170); the search ends at 8, which is
enough for 256. -/
def bitw (p : Nat) : Nat :=
  match [1, 2, 3, 4, 5, 6, 7].find? fun w => decide (p ≤ 2 ^ w) with
  | some w => w
  | none => 8

/-- Step 3: an index as `w` bits, least significant first (R171). -/
def indexBits (w : Nat) (i : Byte) : List Bool := (List.range w).map fun j => i.getLsbD j

/-- Step 3: the continuous bit stream (R171). -/
def indexStream (w : Nat) (idx : List Byte) : List Bool := idx.flatMap (indexBits w)

/-- A binary numeral, "first character most significant" (R172). -/
def numeral (bits : List Bool) : Nat := bits.foldl (fun n b => 2 * n + b.toNat) 0

/-- "zero-padding the final group" (R172, R174), which no command reaches on a full grid. -/
def padGroup (g : List Bool) : List Bool := g ++ List.replicate (8 - g.length) false

/-- Step 4 on one group: reverse it and read the numeral (R172, decision D21). With `msbFirst` the byte is the
bit-reverse, the other reading of R177 (U5). -/
def packGroup (msbFirst : Bool) (g : List Bool) : Byte :=
  BitVec.ofNat 8 (numeral (if msbFirst then padGroup g else (padGroup g).reverse))

/-- Steps 3 and 4 (R171, R172, R173): the `32 × w` packed bytes. -/
def pack (msbFirst : Bool) (w : Nat) (idx : List Byte) : List Byte :=
  (cut 8 (32 * w) (indexStream w idx)).map (packGroup msbFirst)

/-- The writes of `PXPACK` (R173). -/
def storePack (s : State) : State :=
  { s with
    bitw := BitVec.ofNat 4 (bitw s.palsize)
    pkbuf := pack s.cfg.packMsbFirst (bitw s.palsize) s.idx }

/-- `PXPACK` (R173): needs a valid scan. -/
def execPxpack (s : State) : Result :=
  command s (if s.palsize = 0 then .error (.noscan, 0) else .ok (storePack s))

/-- The palette block (R79, R178): count byte modulo 256 (R169), palette bytes, packed bytes. -/
def paletteBlock (s : State) : List Byte :=
  [BitVec.ofNat 8 (s.palsize % 256)] ++ s.bytes .pal ++ s.pkbuf

/-- `PXEMIT` (R178): append the palette block to IBUF; a valid pack is checked before the room (R233). -/
def execPxemit (s : State) : Result :=
  command s
    (if s.pklen = 0 then .error (.nopack, 0)
     else if s.cfg.ibufMax < s.ilen + (1 + 3 * s.palsize + s.pklen) then
       .error (.ifull, s.ilen + (1 + 3 * s.palsize + s.pklen))
     else .ok (s.ibufAppend (paletteBlock s)))

end Sys2Proof.Machine
end

