-- ==== Sys2Proof/Machine/System.lean ====
section
/-! DEFINITION. System commands `NOP`, `ERRCLR`, `SRST` (spec 45 R190 to R192), the illegal word (30 R78) and the
reset input (70 R260, R261). -/

namespace Sys2Proof.Machine

/-- `NOP` (R190): "state before equals state after". -/
def execNop (s : State) : Result := command s (.ok s)

/-- `ERRCLR` (R191), "performed also while `ERR = 1` (that is its purpose)". -/
def execErrclr (s : State) : Result := alwaysCommand (leaveError s)

/-- The values of R37 for everything a soft reset clears: all but `CMD` and `BUSY` (R192). -/
def clearAll (s : State) : State :=
  { s with
    err := false
    errcode := 0x00
    errinfo := 0
    acc := 0x0000
    len := 0x0000
    ibuf := []
    oml := []
    pal := []
    idx := []
    bitw := 0
    pkbuf := []
    wsel := 0
    wchunk := 0
    waddr := 0 }

/-- `SRST` (R192, R262), "performed also while `ERR = 1`"; `CMD` keeps the word just written. -/
def execSrst (s : State) : Result := alwaysCommand (clearAll s)

/-- A word that matches no row of the opcode map (R78): `E_ILLCMD` with the word, zero-extended (R231). Under
the error-stop it is ignored like any other (R233, R236). -/
def illegalCommand (s : State) : Result := command s (.error (.illcmd, s.cmd.toNat))

/-- The reset input (R260): the state of R37, a running command being abandoned (R261). What belongs to the
build and to the outside world stays (log entries 1, 2, 3). -/
def resetInput (s : State) : State := { clearAll s with cmd := 0x0000, busy := false }

end Sys2Proof.Machine
end

