-- ==== Sys2Proof/Machine/Dispatch.lean ====
section
/-! DEFINITION. The dispatch from a command to its meaning, one arm per constructor of `Instr`. -/

namespace Sys2Proof.Machine

def exec (i : Instr) (s : State) : Host.Outcome State Fault Refusal :=
  match i with
  | .nop => Sys2Proof.Machine.execNop s
  | .errclr => Sys2Proof.Machine.execErrclr s
  | .srst => Sys2Proof.Machine.execSrst s
  | .iclr => Sys2Proof.Machine.execIclr s
  | .ipush imm8 => Sys2Proof.Machine.execIpush imm8 s
  | .ih2b => Sys2Proof.Machine.execIh2b s
  | .crcclr => Sys2Proof.Machine.execCrcclr s
  | .crcadd imm8 => Sys2Proof.Machine.execCrcadd imm8 s
  | .crchex => Sys2Proof.Machine.execCrchex s
  | .crcraw => Sys2Proof.Machine.execCrcraw s
  | .bldrH => Sys2Proof.Machine.execBldrH s
  | .bldaH => Sys2Proof.Machine.execBldaH s
  | .bldrR => Sys2Proof.Machine.execBldrR s
  | .bldaR => Sys2Proof.Machine.execBldaR s
  | .lclr => Sys2Proof.Machine.execLclr s
  | .pxscan => Sys2Proof.Machine.execPxscan s
  | .pxpack => Sys2Proof.Machine.execPxpack s
  | .pxemit => Sys2Proof.Machine.execPxemit s

end Sys2Proof.Machine
end

