-- ==== Sys2Proof/Machine/Flags.lean ====
section
/-! DEFINITION. The two flags of `STATUS` (spec 10 R23). There are no condition codes: "the checksum's carry out of
bit 15 is discarded" (R23, R111). -/

namespace Sys2Proof.Machine

/-- `STATUS` as the host reads it: bit 0 `BUSY`, bit 1 `ERR`, bits 31:2 zero (R23). -/
def State.status (s : State) : Word := 0#30 ++ BitVec.ofBool s.err ++ BitVec.ofBool s.busy

end Sys2Proof.Machine
end

