-- ==== Sys2Proof/Machine/HostPort.lean ====
section
/-! DEFINITION. The register map, the read window and what the outside world's accesses do (spec 10 R24 to R26,
R32; 20 R57, R61; 70 R260, R261, R264, R265; 93 U1, U2, U6, U9). -/

namespace Sys2Proof.Machine

/-- The object `WSEL` selects (R32); 5, 6 and 7 are reserved and select nothing (U9). -/
def windowSpace (s : State) : Option Space :=
  match s.wsel.toNat with
  | 0 => some .ibuf
  | 1 => some (.oml s.wchunk.toNat)
  | 2 => some .pal
  | 3 => some .idx
  | 4 => some .pkbuf
  | _ => none

/-- `WLEN`: the length of the selected object (R32). -/
def windowLength (s : State) : Nat :=
  match windowSpace s with
  | some sp => (s.bytes sp).length
  | none => 0

/-- The selected byte; `none` at and beyond `WLEN` (R32, R36). -/
def windowByte (s : State) : Option Byte :=
  match windowSpace s with
  | some sp => s.byteAt sp s.waddr.toNat
  | none => none

/-- `WDATA` for a byte: 7:0 `BYTE`, 15:8 `HEXHI`, 23:16 `HEXLO`, 31 `VALID` (R24 no. 15, R32). -/
def windowWord (b : Byte) : Word :=
  1#1 ++ 0#7 ++ hexchar (b.toNat % 16) ++ hexchar (b.toNat / 16) ++ b

/-- `WDATA`: "else every field is 0" (R32). -/
def windowData (s : State) : Word :=
  match windowByte s with
  | some b => windowWord b
  | none => 0

/-- The value of register `k` (R24) with `BUSY = 0`; "Register numbers 16 and above do not exist: reads return
zero" (R24). -/
def readReg (s : State) (k : Nat) : Word :=
  match k with
  | 0 => s.cmd.setWidth 32
  | 1 => s.status
  | 2 => s.errcode.setWidth 32
  | 3 => s.errinfo
  | 4 => s.acc.setWidth 32
  | 5 => s.len.setWidth 32
  | 6 => word32 s.ilen
  | 7 => word32 s.ocnt
  | 8 => (BitVec.ofNat 9 s.palsize).setWidth 32
  | 9 => s.bitw.setWidth 32
  | 10 => (BitVec.ofNat 9 s.pklen).setWidth 32
  | 11 => s.wsel.setWidth 32
  | 12 => s.wchunk
  | 13 => s.waddr
  | 14 => word32 (windowLength s)
  | 15 => windowData s
  | _ => 0

/-- A host read of register `k`: "`STATUS` and `CMD` … read defined values at all times", the others an
undefined value while `BUSY = 1` (U2, R57 (d)). No side effect on TEFE (R61). -/
def hostRead (k : Nat) (s : State) : State :=
  { s with
    readData := if s.busy && k != 0 && k != 1 then Config.freeRead s.freeReads else readReg s k
    freeReads := s.freeReads + 1 }

/-- A host write of register `k` (R24, R25, R61): `CMD` takes `w[15:0]` and starts the command, which is
undefined while `BUSY = 1` (U1); the selectors store what fits their field; all else is ignored. -/
def hostWrite (k : Nat) (v : Word) (s : State) : Result :=
  match k with
  | 0 =>
    if s.busy then .fault .cmdWriteWhileBusy
    else .next { s with cmd := v.setWidth 16, busy := true }
  | 11 => .next { s with wsel := v.setWidth 3 }
  | 12 => .next { s with wchunk := v }
  | 13 => .next { s with waddr := v }
  | _ => .next s

/-- "Register number `k` is at `REG_BASE + 4k`" (R24); no register is at any other address (R54, U6). -/
def portRegister (c : Config) : RegPort → Option Nat
  | .number k => some k
  | .address a => if c.regBase ≤ a ∧ (a - c.regBase) % 4 = 0 then some ((a - c.regBase) / 4) else none

/-- One access of the outside world. -/
def hostAct (op : HostOp) (s : State) : Result :=
  match op with
  | .reset => .next (resetInput s)
  | .write port v =>
    match portRegister s.cfg port with
    | some k => hostWrite k v s
    | none => .refused .noRegisterAtAddress
  | .read port =>
    match portRegister s.cfg port with
    | some k => .next (hostRead k s)
    | none => .refused .noRegisterAtAddress

end Sys2Proof.Machine
end

