-- ==== Sys2Proof/Machine/Engine.lean ====
section
/-! DEFINITION. What happens next: the engine performing the latched command, and the pending accesses of the outside
world (spec 10 R22, R25; 20 R56 to R58; 70 R264). Step.lean only calls these. -/

namespace Sys2Proof.Machine

/-- The engine performs the command latched in `CMD` to completion, "one indivisible event" (R56). A word of no
row is illegal (R78). -/
def runLatched (s : State) : Result :=
  match decode s.cmd with
  | .ok i => exec i s
  | .error _ => illegalCommand s

/-- Take the first pending access off the queue and make it. -/
def hostNext (s : State) (ev : HostEvent) (rest : List HostEvent) : Result :=
  hostAct ev.op { s with hostQueue := rest }

/-- One transition: an access that does not wait goes first; else a running command completes (R56); else the
next access is made, and with none pending the state stays as it is (R57 (b)). -/
def advance (s : State) : Result :=
  match s.hostQueue with
  | [] => if s.busy then runLatched s else .next s
  | ev :: rest => if s.busy && !ev.overlap then runLatched s else hostNext s ev rest

/-- The command word `w` latched and started, as a host write of `CMD` leaves it (R25), and no access in the
way of its completion. -/
def latchCommand (s : State) (w : Half) : State :=
  { s with cmd := w, busy := true, hostQueue := s.hostQueue.dropWhile (·.overlap) }

end Sys2Proof.Machine
end

