-- ==== Sys2Proof/Machine/Step.lean ====
section
/-! DEFINITION. One step of the machine, and how a command word comes to be its next instruction. -/

namespace Sys2Proof.Machine

/-- One step (R10, R56): see `advance`. -/
def step (s : State) : Host.Outcome State Fault Refusal := advance s

/-- TEFE fetches nothing (R22, R60): "The command word is taken from the value written to `CMD`". A command is
one 16-bit word (R74); bits above it are ignored (R25). Log entry 2. -/
def State.withFetchWord (s : State) (nbits w : Nat) : State :=
  latchCommand s (BitVec.ofNat 16 (w % 2 ^ nbits))

end Sys2Proof.Machine
end

