-- ==== Sys2Proof/Machine/HostSeq.lean ====
section
/-! DEFINITION. A model of the HOST, not of TEFE: the pseudo-instructions (spec 30 R81), the transport's reads (20 R64)
and the software sequences of spec 46 ("The rules here bind a model of the host, if one is built", R200). No
meaning of a command depends on this file. Values DOC0 withholds are parameters (D35). -/

namespace Sys2Proof.Machine

/-- A host write of a register that waits for `BUSY = 0` (R264). -/
def writeReg (k : Nat) (v : Word) : HostEvent := ⟨false, .write (.number k) v⟩

/-- A host read of a register that waits for `BUSY = 0` (R265). -/
def readEvent (k : Nat) : HostEvent := ⟨false, .read (.number k)⟩

/-- A command sequence as writes of `CMD`, each waiting for `BUSY = 0` (R80). -/
def commandEvents (cmds : List Instr) : List HostEvent :=
  cmds.map fun i => writeReg 0 ((encode i).setWidth 32)

/-- `PUSHHEX` and `PUSHRAW`: one `IPUSH` an octet (R81). -/
def pushOctets (octets : List Byte) : List Instr := octets.map .ipush

/-- `LOADHEX` and `LOADRAW`: `ICLR`, then the pushes (R81). -/
def loadOctets (octets : List Byte) : List Instr := .iclr :: pushOctets octets

/-- `buildAndReplace("s")`, hex content given as character octets (R81). -/
def buildAndReplaceHex (text : List Byte) : List Instr := loadOctets text ++ [.bldrH]

/-- `buildAndAppend("s")`, hex content (R81). -/
def buildAndAppendHex (text : List Byte) : List Instr := loadOctets text ++ [.bldaH]

/-- `buildAndReplace(raw bytes)` (R81). -/
def buildAndReplaceRaw (bytes : List Byte) : List Instr := loadOctets bytes ++ [.bldrR]

/-- `buildAndAppend(raw bytes)` (R81). -/
def buildAndAppendRaw (bytes : List Byte) : List Instr := loadOctets bytes ++ [.bldaR]

/-- `crc("s")`: the commands before `RD ACC` (R81). -/
def crcCommands (text : List Byte) : List Instr := loadOctets text ++ [.crchex]

/-- `crc("s")` with its `RD ACC` (R81). -/
def crcEvents (text : List Byte) : List HostEvent := commandEvents (crcCommands text) ++ [readEvent 4]

/-- `crc_text`: `b2hex(le16(ACC))` (R110, R117). -/
def crcText (acc : Half) : List Byte := b2hex (le16 acc.toNat)

/-- `RDW sel, chunk, addr` (R80): set the window, then read `WDATA`. -/
def readWindow (sel chunk addr : Nat) : List HostEvent :=
  [writeReg 11 (BitVec.ofNat 32 sel), writeReg 12 (BitVec.ofNat 32 chunk), writeReg 13 (BitVec.ofNat 32 addr),
    readEvent 15]

/-- `WLEN`, then `WDATA` at each of the `m` offsets of the object that is selected. -/
def objectReads (m : Nat) : List HostEvent :=
  readEvent 14 :: (List.range m).flatMap fun a => [writeReg 13 (BitVec.ofNat 32 a), readEvent 15]

/-- The transport's reading of chunk `j` of `m` bytes (R64). -/
def transportReads (j m : Nat) : List HostEvent :=
  [writeReg 11 1, writeReg 12 (BitVec.ofNat 32 j)] ++ objectReads m

/-- The transport's reading of a list whose chunks have these lengths: `OCNT`, then each chunk in list order
(R64). -/
def messageListReads (lengths : List Nat) : List HostEvent :=
  readEvent 7 :: lengths.zipIdx.flatMap fun x => transportReads x.2 x.1

/-- The host's reading of an input buffer of `m` octets (R217: `WSEL = 0`). -/
def inputBufferReads (m : Nat) : List HostEvent := writeReg 11 0 :: objectReads m

/-- The host parameters of D35: "OPEN … never a guess" (R200). -/
structure HostParams where
  opTime : List Byte
  opLight : List Byte
  /-- MODEL'S OWN (DESIGN CHOICE, log entry 14): the wire form of the lighting "power flag", on and off. R204
  gives it no value and no width; that it is `00` or `01` is said of the four flags of R202 only. -/
  lightPower : Bool → List Byte
  lightSuffix : List Byte
  opEffect : List Byte
  opScore : List Byte
  opWeather : List Byte
  opBright : List Byte
  opImagePrefix : List Byte
  /-- `IMG_LEN_BYTES`: width of the length field of a static image. -/
  imgLenBytes : Nat
  /-- `IMG_LEN_OF`: what "total byte length" counts, from `PALSIZE` and `PKLEN` (R211, R212). -/
  imgLenOf : Nat → Nat → Nat
  opAnim : List Byte
  pieceIndexBase : Nat
  /-- `ANIM_SPLIT_INCLUDES_HEADER`, default true (C3). -/
  animSplitIncludesHeader : Bool := true
  /-- `TEXT_ENCODING`: how raw text becomes bytes (D26, R98). -/
  textEncoding : String → List Byte

/-- The host's error taxonomy (R210), "None of these is raised by TEFE", and the cases U13 leaves open. -/
inductive HostError where
  | invalidColor
  | invalidRange
  | invalidBrightnessRange
  | unsupportedFileType
  | unknownFileType
  | decodeFailure
  /-- U13: treatment "refuse". -/
  | leftOpen
deriving DecidableEq, Repr

/-- "clamped to [lo, hi]": below becomes `lo`, above becomes `hi`, without failure (R204, R206). -/
def clampTo (lo hi v : Int) : Nat := (max lo (min hi v)).toNat

/-- A flag byte, `00` or `01` (R202). -/
def flagByte (b : Bool) : Byte := if b then 0x01 else 0x00

/-- "color must parse to a valid RGB value; else fails with `InvalidColor`" (R202). -/
def parsedColor (c : Option Color) : Except HostError Color :=
  match c with
  | some c => .ok c
  | none => .error .invalidColor

/-- Time display (R202). -/
def timePayload (p : HostParams) (mode : Byte) (f1 f2 f3 f4 : Bool) (color : Option Color) :
    Except HostError (List Byte) := do
  let c ← parsedColor color
  .ok (p.opTime ++ [mode, flagByte f1, flagByte f2, flagByte f3, flagByte f4] ++ c.bytes)

/-- Cloud mode: the two bytes `45 02` (R203). -/
def cloudPayload : List Byte := [0x45, 0x02]

/-- Lighting effect (R204). -/
def lightPayload (p : HostParams) (color : Option Color) (brightness : Int) (kind : Byte) (power : Bool) :
    Except HostError (List Byte) := do
  let c ← parsedColor color
  .ok (p.opLight ++ c.bytes ++ [BitVec.ofNat 8 (clampTo 0 100 brightness), kind] ++ p.lightPower power ++ p.lightSuffix)

/-- Effect mode (R205). -/
def effectPayload (p : HostParams) (kind : Byte) : List Byte := p.opEffect ++ [kind]

/-- Scoreboard (R206). -/
def scorePayload (p : HostParams) (red blue : Int) : List Byte :=
  p.opScore ++ le16 (clampTo 0 999 red) ++ le16 (clampTo 0 999 blue)

/-- The temperature byte (R207, C4): `temp` itself, or `256 + temp` below zero. -/
def tempByte (temp : Int) : Except HostError Byte :=
  if -127 ≤ temp ∧ temp ≤ 128 then .ok (BitVec.ofNat 8 (if temp < 0 then 256 + temp else temp).toNat)
  else .error .invalidRange

/-- Weather and temperature (R207). -/
def weatherPayload (p : HostParams) (temp : Int) (kind : Byte) : Except HostError (List Byte) := do
  let t ← tempByte temp
  .ok (p.opWeather ++ [t, kind])

/-- The brightness value (R208): in [0, 100] as it stands, or remapped from a range with ceiling rounding; a range
that is empty or turned round is open (N15, U13). -/
def brightnessByte (value : Int) (range : Option (Int × Int)) : Except HostError Byte :=
  match range with
  | none =>
    if 0 ≤ value ∧ value ≤ 100 then .ok (BitVec.ofNat 8 value.toNat) else .error .invalidBrightnessRange
  | some (lo, hi) =>
    if hi ≤ lo then .error .leftOpen
    else if value < lo ∨ hi < value then .error .invalidBrightnessRange
    else .ok (BitVec.ofNat 8 (((value - lo) * 100 + (hi - lo) - 1) / (hi - lo)).toNat)

/-- Brightness (R208). -/
def brightPayload (p : HostParams) (value : Int) (range : Option (Int × Int)) :
    Except HostError (List Byte) := do
  let b ← brightnessByte value range
  .ok (p.opBright ++ [b])

/-- "calls `buildAndReplace`" (R201), the payload as hex text. -/
def submitPayload (payload : List Byte) : List Instr := buildAndReplaceHex (b2hex payload)

/-- R201's other way: "pushes the payload bytes and uses `BLDR.R`". -/
def submitPayloadRaw (payload : List Byte) : List Instr := buildAndReplaceRaw payload

/-- `buildAndReplace(content)` for "raw text re-encoded to its byte representation" (R98, R137). -/
def buildAndReplaceText (p : HostParams) (text : String) : List Instr :=
  buildAndReplaceRaw (p.textEncoding text)

/-- `displayCloudPackage()` (R81, R203). -/
def displayCloudPackage : List Instr := submitPayload cloudPayload

/-- The `n` low bytes of a number, low byte first (R51). Where the number needs more than `n` bytes, see
`leField`. -/
def leBytes : Nat → Nat → List Byte
  | 0, _ => []
  | n + 1, v => BitVec.ofNat 8 (v % 256) :: leBytes n (v / 256)

/-- A little-endian field of `n` bytes (R51). DESIGN CHOICE (log entry 14): a number that does not fit the field
is left open, as U13 has it for the other host fields; of a static image's length the spec says nothing. -/
def leField (n v : Nat) : Except HostError (List Byte) :=
  if v < 256 ^ n then .ok (leBytes n v) else .error .leftOpen

/-- The 768 octets of a pixel grid in scan order: "row-major order (index = x + 16·y)", row 0 first and within a
row column 0 first (R165, R166). -/
def gridOctets (getPixel : Nat → Nat → Color) : List Byte :=
  (List.range gridHeight).flatMap fun y => (List.range gridWidth).flatMap fun x => (getPixel x y).bytes

/-- What the host puts before the palette block of a static image (R211). -/
def imageHeader (p : HostParams) (palsize pklen : Nat) : Except HostError (List Byte) := do
  let length ← leField p.imgLenBytes (p.imgLenOf palsize pklen)
  .ok (p.opImagePrefix ++ length ++ [0x00, 0x00, 0x00])

/-- Static image, the commands before the host reads `PALSIZE` and `PKLEN`, from 768 pixel octets (R212). -/
def imageScanCommands (pixels : List Byte) : List Instr := loadOctets pixels ++ [.pxscan, .pxpack]

/-- "or `LOADHEX` <1536 characters> ; `IH2B`": the same from hex text (R212). -/
def imageScanCommandsHex (text : List Byte) : List Instr := loadOctets text ++ [.ih2b, .pxscan, .pxpack]

/-- Those commands, in either form, and `RD PALSIZE ; RD PKLEN` after them (R212). -/
def imageScanEvents (scanCommands : List Instr) : List HostEvent :=
  commandEvents scanCommands ++ [readEvent 8, readEvent 10]

/-- Static image, the commands after the host has read the two numbers (R212). -/
def imageBuildCommands (p : HostParams) (palsize pklen : Nat) : Except HostError (List Instr) := do
  let header ← imageHeader p palsize pklen
  .ok (loadOctets header ++ [.pxemit, .bldrR])

/-- One frame of an animation on TEFE: the palette block is left alone in IBUF (R217). -/
def animFrameCommands (pixels : List Byte) : List Instr :=
  loadOctets pixels ++ [.pxscan, .pxpack, .iclr, .pxemit]

/-- One frame of an animation with the host's reading of the block back through the window (R217). -/
def animFrameEvents (pixels : List Byte) (blockLength : Nat) : List HostEvent :=
  commandEvents (animFrameCommands pixels) ++ inputBufferReads blockLength

/-- A 16-bit little-endian field; beyond 16 bits the case is open (N16, U13). -/
def le16Field (v : Nat) : Except HostError (List Byte) :=
  if v ≤ 65535 then .ok (le16 v) else .error .leftOpen

/-- Frame body (R213): delay in milliseconds, reset flag 0x00 (C10), palette block. -/
def frameBody (delayCentiseconds : Nat) (block : List Byte) : Except HostError (List Byte) := do
  let delay ← le16Field (delayCentiseconds * 10)
  .ok (delay ++ [0x00] ++ block)

/-- `FRAME_MARK` (R8). -/
def frameMark : Byte := 0xAA

/-- Frame record (R214): `FRAME_MARK`, body size, body. -/
def frameRecord (body : List Byte) : Except HostError (List Byte) := do
  let size ← le16Field body.length
  .ok ([frameMark] ++ size ++ body)

/-- The records of an animation, from each frame's delay and palette block, in order (R213, R214). -/
def frameRecords (frames : List (Nat × List Byte)) : Except HostError (List (List Byte)) :=
  frames.mapM fun f => do
    let body ← frameBody f.1 f.2
    frameRecord body

/-- `totalSize`: "sum of per-frame record sizes" (R215). -/
def totalSize (records : List (List Byte)) : Nat := (records.map List.length).sum

/-- The opcode and total size that start the super-payload and every piece (R215, R216); a total beyond 16 bits is
open (U13). -/
def animHeader (p : HostParams) (records : List (List Byte)) : Except HostError (List Byte) := do
  let size ← le16Field (totalSize records)
  .ok (p.opAnim ++ size)

/-- The super-payload: "animation opcode + `totalSize`(2 bytes LE) + concatenated frame records" (R215). -/
def superPayload (p : HostParams) (records : List (List Byte)) : Except HostError (List Byte) := do
  let header ← animHeader p records
  .ok (header ++ records.flatten)

/-- `ANIM_PIECE_BYTES` (R8). -/
def animPieceBytes : Nat := 200

/-- The pieces of the super-payload, or of the concatenated records alone in the other reading of C3, each with its
header and index (R216); an index beyond a byte is open (N18, U13). -/
def animPieces (p : HostParams) (records : List (List Byte)) : Except HostError (List (List Byte)) := do
  let header ← animHeader p records
  let whole ← superPayload p records
  let split := if p.animSplitIncludesHeader then whole else records.flatten
  let pieces := cut animPieceBytes ((split.length + (animPieceBytes - 1)) / animPieceBytes) split
  if p.pieceIndexBase + pieces.length ≤ 256 then
    .ok (pieces.zipIdx.map fun x => header ++ [BitVec.ofNat 8 (p.pieceIndexBase + x.2)] ++ x.1)
  else .error .leftOpen

/-- The Animation Assembler: from each frame's delay and palette block to the pieces (R213 to R216). -/
def assembleAnimation (p : HostParams) (frames : List (Nat × List Byte)) : Except HostError (List (List Byte)) := do
  let records ← frameRecords frames
  animPieces p records

/-- Submission of an animation (R217): empty the list, then append one frame a piece. -/
def animBuildCommands (pieces : List (List Byte)) : List Instr :=
  .lclr :: pieces.flatMap buildAndAppendRaw

end Sys2Proof.Machine
end

