-- ==== Sys2Proof/Machine/Serial.lean ====
section
/-! DEFINITION. The units seen byte by byte or bit by bit, with the hidden state of spec 10 R34. It "exists only while a
command runs and every command starts it from the value given here", so `State` omits it and the commands
use the whole-object functions; these folds are "the same function" (R10). -/

namespace Sys2Proof.Machine

/-- The converter's hidden state: phase bit `PH` and 4-bit nibble latch `NIB` (R34 (a), R96). -/
structure HexUnit where
  ph : Bool
  nib : BitVec 4
deriving DecidableEq, Repr

/-- "`PH = 0` at the start of every command" (R96). R34 (a) and R96 give `NIB` no start value: it is an argument,
left free (DESIGN CHOICE, log entry 11), and is written before it is read. -/
def HexUnit.start (nib : BitVec 4) : HexUnit := ⟨false, nib⟩

/-- One character (R96), with what is emitted; undefined (`none`) on a non-digit, which R94 excludes before. -/
def hexUnitStep (u : HexUnit) (c : Byte) : Option (HexUnit × List Byte) :=
  match hexval c with
  | none => none
  | some v => if u.ph then some (⟨false, u.nib⟩, [BitVec.ofNat 8 (16 * u.nib.toNat + v)])
    else some (⟨true, BitVec.ofNat 4 v⟩, [])

/-- Feeding the characters in order (R96). -/
def hexUnitRun : HexUnit → List Byte → Option (HexUnit × List Byte)
  | u, [] => some (u, [])
  | u, c :: cs =>
    match hexUnitStep u c with
    | none => none
    | some (u', out) =>
      match hexUnitRun u' cs with
      | none => none
      | some (u'', outs) => some (u'', out ++ outs)

/-- The chunker: chunks closed so far, the open chunk and its fill count `q` (R34 (b), R147). -/
structure ChunkUnit where
  closed : List (List Byte)
  current : List Byte
  q : Nat
deriving DecidableEq, Repr

/-- "`q`, 0 at the start of a frame" (R147). -/
def ChunkUnit.start : ChunkUnit := ⟨[], [], 0⟩

/-- One byte of the frame: "when `q` reaches 666 the chunk is closed" (R147). -/
def chunkUnitStep (u : ChunkUnit) (b : Byte) : ChunkUnit :=
  if u.q + 1 = chunkBytes then ⟨u.closed ++ [u.current ++ [b]], [], 0⟩
  else ⟨u.closed, u.current ++ [b], u.q + 1⟩

/-- "At the end of the frame an open chunk with `q ≥ 1` is closed" (R147). -/
def ChunkUnit.finish (u : ChunkUnit) : List (List Byte) :=
  if 1 ≤ u.q then u.closed ++ [u.current] else u.closed

/-- The frame builder in series with the chunker: the running sum and the byte position (R34 (b), R134). -/
structure FrameUnit where
  acc : Half
  pos : Nat
  out : ChunkUnit
deriving DecidableEq, Repr

/-- Emit a byte without summing it: phases P0, P4, P5, P6 of R134. -/
def emitByte (u : FrameUnit) (b : Byte) : FrameUnit :=
  { u with pos := u.pos + 1, out := chunkUnitStep u.out b }

/-- Emit a byte and `acc_step` it: phases P1, P2, P3 of R134. -/
def emitSummed (u : FrameUnit) (b : Byte) : FrameUnit :=
  { emitByte u b with acc := accStep u.acc b }

/-- Phases P0 to P6 in order (R134): "the two CRC bytes are not added to `ACC`". -/
def frameUnitRun (content : List Byte) : FrameUnit :=
  let length := frameLength content
  let p0 := emitByte ⟨0, 0, ChunkUnit.start⟩ framePrefix
  let p1 := emitSummed p0 (BitVec.ofNat 8 (length % 256))
  let p2 := emitSummed p1 (BitVec.ofNat 8 (length / 256))
  let p3 := content.foldl emitSummed p2
  let p4 := emitByte p3 (BitVec.ofNat 8 (p3.acc.toNat % 256))
  let p5 := emitByte p4 (BitVec.ofNat 8 (p3.acc.toNat / 256))
  emitByte p5 frameSuffix

/-- The bit-packer: group register `GR`, 3-bit count `t`, and the bytes written so far (R34 (c), R176). -/
structure PackUnit where
  gr : Byte
  t : BitVec 3
  out : List Byte
deriving DecidableEq, Repr

/-- "both 0 at the start of `PXPACK`" (R176). -/
def PackUnit.start : PackUnit := ⟨0, 0, []⟩

/-- `GR[t] <- bit`; `t <- t + 1`; "when `t` wraps from 7 to 0, `GR` is written … and cleared" (R176). -/
def packUnitStep (u : PackUnit) (bit : Bool) : PackUnit :=
  let gr := u.gr ||| ((BitVec.ofBool bit).setWidth 8 <<< u.t.toNat)
  if u.t = 7 then ⟨0, 0, u.out ++ [gr]⟩ else ⟨gr, u.t + 1, u.out⟩

/-- The bits in stream order (R176). -/
def packUnitRun (bits : List Bool) : PackUnit := bits.foldl packUnitStep PackUnit.start

end Sys2Proof.Machine
end

