-- ==== Sys2Proof/WellFormed.lean ====
section
/-! DEFINITION. Well-formedness of instructions and of configurations (spec 00_scope.md R9, 30_encoding.md R75). -/

namespace Sys2Proof

/-- Every term of `Instr` is a well-formed command: the only operand is `imm8`, "an unsigned byte 0 to 255"
(R75 (a)), and its type `Byte` is that range, so no term is left to refuse (log entry 9). Written arm by arm so that a new command cannot slip past. -/
def Instr.wellFormed : Instr → Bool
  | .nop => true
  | .errclr => true
  | .srst => true
  | .iclr => true
  | .ipush _ => true
  | .ih2b => true
  | .crcclr => true
  | .crcadd _ => true
  | .crchex => true
  | .crcraw => true
  | .bldrH => true
  | .bldaH => true
  | .bldrR => true
  | .bldaR => true
  | .lclr => true
  | .pxscan => true
  | .pxpack => true
  | .pxemit => true

/-- The ranges of R9: `CONTENT_MAX` is 1 to 65533, `IBUF_MAX` at least 2048, `OML_MAX_CHUNKS` at least 1 or
unbounded. `REG_BASE` and `PACK_MSB_FIRST` have no illegal value. -/
def Config.wellFormed (c : Config) : Bool :=
  decide (1 ≤ c.contentMax) && decide (c.contentMax ≤ 65533) && decide (2048 ≤ c.ibufMax) &&
    (match c.omlMaxChunks with
     | none => true
     | some m => decide (1 ≤ m))

end Sys2Proof
end

