-- ==== Sys2Proof/Safety.lean ====
section
/-! DEFINITION. What claims speak of: the invariants of spec 10 R38, a host that keeps to R264 and R265, and what of a
state belongs to TEFE. -/

namespace Sys2Proof.Machine

/-- The state a step, command or access answers, if it answers one. -/
def nextOf (r : Result) : Option State :=
  match r with
  | .next t => some t
  | .fault _ => none
  | .refused _ => none

/-- TEFE's own part of a state (R20) and its parameters: what the model adds for the outside world is blanked. -/
def State.tefe (s : State) : State := { s with hostQueue := [], readData := 0, freeReads := 0 }

/-- A byte sequence list that is "a concatenation of zero or more frames' chunk lists" (R38 item 3). -/
def FrameList (oml : List (List Byte)) : Prop :=
  ∃ contents : List (List Byte),
    (∀ c ∈ contents, 1 ≤ c.length ∧ c.length ≤ 65533) ∧
      oml = contents.flatMap fun c => chunks (frame c)

/-- R38 item 4: no scan, or a palette of 1 to 256 different entries and a full grid that uses exactly them. -/
def ScanValid (s : State) : Prop :=
  (s.pal = [] ∧ s.idx = []) ∨
    (1 ≤ s.palsize ∧ s.palsize ≤ 256 ∧ s.pal.Nodup ∧ s.idx.length = 256 ∧
      (∀ b ∈ s.idx, b.toNat < s.palsize) ∧ ∀ k < s.palsize, ∃ b ∈ s.idx, b.toNat = k)

/-- R38 item 5: no pack, or a width that is wide enough and `32 × BITW` bytes. -/
def PackValid (s : State) : Prop :=
  (s.bitw = 0 ∧ s.pkbuf = []) ∨
    (1 ≤ s.bitw.toNat ∧ s.bitw.toNat ≤ 8 ∧ s.pklen = 32 * s.bitw.toNat ∧ 1 ≤ s.palsize ∧
      s.palsize ≤ 2 ^ s.bitw.toNat)

/-- The invariants of R38, with the parameters in their ranges (R9) and R26's "or 0" for `ERRINFO`. -/
structure Inv (s : State) : Prop where
  parameters : s.cfg.wellFormed = true
  input_fits : s.ilen ≤ s.cfg.ibufMax
  list_fits : listHolds s.cfg s.ocnt = true
  chunk_sizes : ∀ ch ∈ s.oml, 1 ≤ ch.length ∧ ch.length ≤ 666
  list_frames : FrameList s.oml
  scan_valid : ScanValid s
  pack_valid : PackValid s
  error_code : s.err = false ↔ s.errcode = 0x00
  error_info : s.err = false → s.errinfo = 0

/-- An access that names a register (U6 excluded). -/
def HostOp.namesRegister (c : Config) : HostOp → Bool
  | .write port _ => (portRegister c port).isSome
  | .read port => (portRegister c port).isSome
  | .reset => true

/-- No access overtakes the running command: the first pending one, if any, waits for `BUSY = 0`. -/
def CommandUndisturbed (s : State) : Prop := ∀ ev ∈ s.hostQueue.head?, ev.overlap = false

/-- The state after a command that raised a fault (R234) and completed. -/
def faultState (s : State) (code : Byte) (info : Nat) : State :=
  { s with busy := false, err := true, errcode := code, errinfo := word32 info }

/-- `BAD(i)` of R94: element `i` is not a hex digit and every earlier one is. -/
def FirstNonHex (text : List Byte) (i : Nat) : Prop :=
  (∃ c, text[i]? = some c ∧ isHexDigit c = false) ∧ ∀ j < i, ∀ d, text[j]? = some d → isHexDigit d = true

/-- The commands that write `ACC` (R21), `SRST` among them (R192). -/
def writesAcc : Instr → Bool
  | .crcclr | .crcadd _ | .crchex | .crcraw | .bldrH | .bldaH | .bldrR | .bldaR | .srst => true
  | .nop | .errclr | .iclr | .ipush _ | .ih2b | .lclr | .pxscan | .pxpack | .pxemit => false

/-- The commands that write `LEN` (R21), `SRST` among them (R192). -/
def writesLen : Instr → Bool
  | .bldrH | .bldaH | .bldrR | .bldaR | .srst => true
  | .nop | .errclr | .iclr | .ipush _ | .ih2b | .crcclr | .crcadd _ | .crchex | .crcraw | .lclr | .pxscan
  | .pxpack | .pxemit => false

/-- The commands that write `IBUF` (R33), `SRST` among them (R192). -/
def writesIbuf : Instr → Bool
  | .iclr | .ipush _ | .ih2b | .pxemit | .srst => true
  | .nop | .errclr | .crcclr | .crcadd _ | .crchex | .crcraw | .bldrH | .bldaH | .bldrR | .bldaR | .lclr
  | .pxscan | .pxpack => false

/-- "Who changes the list" (R154): the `BUILD` commands, `LCLR`, `SRST`. -/
def writesOml : Instr → Bool
  | .bldrH | .bldaH | .bldrR | .bldaR | .lclr | .srst => true
  | .nop | .errclr | .iclr | .ipush _ | .ih2b | .crcclr | .crcadd _ | .crchex | .crcraw | .pxscan | .pxpack
  | .pxemit => false

/-- The commands that write `PAL` and `IDX` (R28, R29, R33), `SRST` among them (R192). -/
def writesScan : Instr → Bool
  | .pxscan | .srst => true
  | .nop | .errclr | .iclr | .ipush _ | .ih2b | .crcclr | .crcadd _ | .crchex | .crcraw | .bldrH | .bldaH
  | .bldrR | .bldaR | .lclr | .pxpack | .pxemit => false

/-- The commands that write `BITW` and `PKBUF`: `PXPACK`, and `PXSCAN` and `SRST` to clear them (R31). -/
def writesPack : Instr → Bool
  | .pxscan | .pxpack | .srst => true
  | .nop | .errclr | .iclr | .ipush _ | .ih2b | .crcclr | .crcadd _ | .crchex | .crcraw | .bldrH | .bldaH
  | .bldrR | .bldaR | .lclr | .pxemit => false

/-- A host as R264 and R265 want it: every access waits for `BUSY = 0` and names a register. -/
def HostWaits (s : State) : Prop :=
  ∀ ev ∈ s.hostQueue, ev.overlap = false ∧ ev.op.namesRegister s.cfg = true

end Sys2Proof.Machine
end

