-- ==== Sys2Proof/Certificates/Slice0/Obligations.lean ====
section
/-! DEFINITION. The statements for the provers. OBLIGATIONS.json gives each its number, its rules and its wording. -/

open Sys2Proof Sys2Proof.Machine

/-! ### The command word (spec 30) -/

/-- R76, the "word" column: one word of each row of the map decodes to its command. -/
def Obligations.OpcodeMapWordsDecode : Prop :=
  decode 0x0000 = .ok .nop ∧ decode 0x0100 = .ok .errclr ∧ decode 0x0200 = .ok .srst ∧
  decode 0x1000 = .ok .iclr ∧ decode 0x11A5 = .ok (.ipush 0xA5) ∧ decode 0x1200 = .ok .ih2b ∧
  decode 0x2000 = .ok .crcclr ∧ decode 0x21FF = .ok (.crcadd 0xFF) ∧ decode 0x2200 = .ok .crchex ∧
  decode 0x2300 = .ok .crcraw ∧ decode 0x3000 = .ok .bldrH ∧ decode 0x3001 = .ok .bldaH ∧
  decode 0x3002 = .ok .bldrR ∧ decode 0x3003 = .ok .bldaR ∧ decode 0x3100 = .ok .lclr ∧
  decode 0x4000 = .ok .pxscan ∧ decode 0x4100 = .ok .pxpack ∧ decode 0x4200 = .ok .pxemit

/-- R74 to R76: decoding the word of a command gives the command back. -/
def Obligations.DecodeOfEncodeGivesTheCommand : Prop :=
  ∀ i : Instr, i.wellFormed = true → decode (encode i) = .ok i

/-- R76: a word has one meaning, and the command has one word. -/
def Obligations.EncodeOfDecodeGivesTheWord : Prop :=
  ∀ (w : Half) (i : Instr), decode w = .ok i → encode i = w

/-- R76, R78: the decoder accepts exactly the words that select a row, and then exactly one row selects them. -/
def Obligations.DecodeAcceptsExactlyTheMapRows : Prop :=
  ∀ w : Half,
    ((∃ i, decode w = .ok i) ↔ ∃ r ∈ opcodeTable, r.selects w = true) ∧
    ∀ r ∈ opcodeTable, ∀ q ∈ opcodeTable, r.selects w = true → q.selects w = true → r = q

/-! ### Running a command, the error-stop, the host's accesses (spec 10, 20, 60, 70) -/

/-- A step of a busy engine is `exec` of the command whose word is in `CMD`; the model's fetch word gives such a
state. -/
def Obligations.StepRunsTheLatchedCommand : Prop :=
  (∀ (s : State) (i : Instr), s.busy = true → CommandUndisturbed s → decode s.cmd = .ok i →
    step s = exec i s) ∧
  ∀ (s : State) (i : Instr), i.wellFormed = true →
    step (s.withFetchWord 16 (encode i).toNat) = exec i (s.withFetchWord 16 (encode i).toNat)

/-- R78: a word that matches no row faults with `E_ILLCMD` and the word, and changes nothing else. -/
def Obligations.IllegalWordFaults : Prop :=
  ∀ s : State, s.busy = true → CommandUndisturbed s → s.err = false →
    (∀ r ∈ opcodeTable, r.selects s.cmd = false) →
    step s = .next
      { s with busy := false, err := true, errcode := 0x01, errinfo := s.cmd.setWidth 32 }

/-- R236: while `ERR = 1` a written word other than `ERRCLR` or `SRST`, legal or not, is latched and completes with
no other change. -/
def Obligations.ErrorStopIgnoresWrittenWords : Prop :=
  ∀ (s : State) (ov : Bool) (port : RegPort) (v : Word) (rest : List HostEvent),
    s.err = true → s.busy = false → portRegister s.cfg port = some 0 →
    s.hostQueue = ⟨ov, .write port v⟩ :: rest → (∀ ev ∈ rest.head?, ev.overlap = false) →
    v.setWidth 16 ≠ (0x0100 : Half) → v.setWidth 16 ≠ (0x0200 : Half) →
    ∃ u, step s = .next u ∧ u.busy = true ∧
      step u = .next { s with cmd := v.setWidth 16, hostQueue := rest }

/-- R236 command by command: while `ERR = 1` every command but `ERRCLR` and `SRST` completes and changes nothing. -/
def Obligations.ErrorStopIgnoresCommands : Prop :=
  ∀ (i : Instr) (s : State), s.err = true → i ≠ .errclr → i ≠ .srst →
    exec i s = .next { s with busy := false }

/-- R25: a `CMD` write latches `w[15:0]` and starts the command; `CMD` reads back the last word written, 0x0000
after reset; a write while `BUSY = 1` is undefined, which the model makes a stop of its own name. -/
def Obligations.CmdWriteLatchesAndStarts : Prop :=
  (∀ (s : State) (ov : Bool) (port : RegPort) (v : Word) (rest : List HostEvent), s.busy = false →
    portRegister s.cfg port = some 0 → s.hostQueue = ⟨ov, .write port v⟩ :: rest →
    step s = .next { s with cmd := v.setWidth 16, busy := true, hostQueue := rest }) ∧
  (∀ (s : State) (port : RegPort) (v : Word) (rest : List HostEvent), s.busy = true →
    portRegister s.cfg port = some 0 → s.hostQueue = ⟨true, .write port v⟩ :: rest → step s = .fault .cmdWriteWhileBusy) ∧
  (∀ s : State, readReg s 0 = s.cmd.setWidth 32) ∧
  readReg State.reset 0 = 0x0000

/-- R57 (b): with `BUSY = 0` TEFE's state changes only through a write of `CMD`, `WSEL`, `WCHUNK` or `WADDR`, or
through reset. -/
def Obligations.IdleStateChangesOnlyByHostWrite : Prop :=
  ∀ s t : State, s.busy = false → step s = .next t → t.tefe ≠ s.tefe →
    ∃ ev rest, s.hostQueue = ev :: rest ∧
      (ev.op = .reset ∨ ∃ port v k, ev.op = .write port v ∧ portRegister s.cfg port = some k ∧
        (k = 0 ∨ k = 11 ∨ k = 12 ∨ k = 13))

/-- U1 and U6 are the only stops: nothing else makes a step a fault or a refusal. -/
def Obligations.OnlyUndefinedAccessesStop : Prop :=
  (∀ (s : State) (f : Fault), step s = .fault f →
    f = .cmdWriteWhileBusy ∧ s.busy = true ∧
      ∃ port v rest, s.hostQueue = ⟨true, .write port v⟩ :: rest ∧ portRegister s.cfg port = some 0) ∧
  ∀ (s : State) (r : Refusal), step s = .refused r →
    r = .noRegisterAtAddress ∧ ∃ ev rest, s.hostQueue = ev :: rest ∧ ev.op.namesRegister s.cfg = false

/-- R56, R264: a host that waits for `BUSY = 0` never stops the machine, however long it runs. -/
def Obligations.WaitingHostNeverStops : Prop :=
  ∀ (s : State) (n : Nat), HostWaits s → ∃ t : State, Host.Core.run Sys2Proof.core n s = .next t

/-- R56: every command completes, whatever the state: `BUSY` is cleared, and neither `CMD`, nor the parameters, nor
what is pending outside is touched. -/
def Obligations.EveryCommandCompletes : Prop :=
  ∀ (i : Instr) (s : State), ∃ t, exec i s = .next t ∧ t.busy = false ∧ t.cmd = s.cmd ∧ t.cfg = s.cfg ∧
    t.hostQueue = s.hostQueue ∧ t.readData = s.readData ∧ t.freeReads = s.freeReads

/-- R263: the parameters "are fixed at build time of the block, not written at run time". -/
def Obligations.ParametersNeverChange : Prop :=
  ∀ s t : State, step s = .next t → t.cfg = s.cfg

/-- R37: every register reads zero after reset, `BUSY` and `ERR` are clear, every buffer is empty. -/
def Obligations.ResetLeavesEverythingZero : Prop :=
  (∀ k, readReg State.reset k = 0) ∧ State.reset.busy = false ∧ State.reset.err = false ∧
  State.reset.ibuf = [] ∧ State.reset.oml = [] ∧ State.reset.pal = [] ∧ State.reset.idx = [] ∧
  State.reset.pkbuf = []

/-- R262: `SRST` gives the reset state but for `CMD`, also while `ERR = 1`. -/
def Obligations.SoftResetGivesResetState : Prop :=
  ∀ s : State,
    exec .srst s = .next
      { State.reset with
        cmd := s.cmd, cfg := s.cfg, hostQueue := s.hostQueue, readData := s.readData,
        freeReads := s.freeReads } ∧
    (s.cmd = 0x0200 → ∀ t, exec .srst s = .next t → readReg t 0 = 0x0200)

/-- R261: reset asserted at any time, also while a command runs, gives the reset state. -/
def Obligations.ResetAbandonsRunningCommand : Prop :=
  ∀ (s : State) (ov : Bool) (rest : List HostEvent), s.hostQueue = ⟨ov, .reset⟩ :: rest →
    (s.busy = false ∨ ov = true) →
    step s = .next
      { State.reset with
        cfg := s.cfg, hostQueue := rest, readData := s.readData, freeReads := s.freeReads }

/-- R234: a fault sets `ERR`, `ERRCODE`, `ERRINFO`, completes the command, and writes nothing else; R231: the code is
one of 0x01 to 0x09. -/
def Obligations.FaultEntryWritesNothingElse : Prop :=
  ∀ s t : State, step s = .next t → s.err = false → t.err = true →
    s.busy = true ∧ ∃ (code : Byte) (info : Word), 1 ≤ code.toNat ∧ code.toNat ≤ 9 ∧
      t = { s with busy := false, err := true, errcode := code, errinfo := info }

/-- R231, last sentence: `NOP`, `ERRCLR`, `SRST`, `ICLR`, `CRCCLR`, `CRCADD`, `CRCRAW`, `LCLR` cannot fault. -/
def Obligations.FaultFreeCommands : Prop :=
  ∀ (i : Instr) (s t : State),
    (i = .nop ∨ i = .errclr ∨ i = .srst ∨ i = .iclr ∨ i = .crcclr ∨ (∃ b, i = .crcadd b) ∨ i = .crcraw ∨
      i = .lclr) →
    s.err = false → exec i s = .next t → t.err = false

/-- R236, R237: the error state is left by `ERRCLR`, `SRST` or reset only, and until then `ERRCODE` and `ERRINFO` keep
describing the first fault. -/
def Obligations.ErrorStateLeftOnlyByAcknowledgement : Prop :=
  ∀ s t : State, step s = .next t → s.err = true →
    (t.err = true ∧ t.errcode = s.errcode ∧ t.errinfo = s.errinfo) ∨
    (t.err = false ∧
      ((s.busy = true ∧ (s.cmd = 0x0100 ∨ s.cmd = 0x0200)) ∨ ∃ ov rest, s.hostQueue = ⟨ov, .reset⟩ :: rest))

/-- R23: `STATUS` shows `BUSY` in bit 0, `ERR` in bit 1 and zeros above, at all times. -/
def Obligations.StatusShowsTheTwoFlags : Prop :=
  ∀ (s : State) (i : Nat),
    (readReg s 1).getLsbD i = ((decide (i = 0) && s.busy) || (decide (i = 1) && s.err))

/-- R61: a read changes nothing of TEFE and, with `BUSY = 0` or of `CMD` or `STATUS`, returns the register. -/
def Obligations.ReadsHaveNoSideEffect : Prop :=
  ∀ (s : State) (ov : Bool) (port : RegPort) (k : Nat) (rest : List HostEvent),
    s.hostQueue = ⟨ov, .read port⟩ :: rest → portRegister s.cfg port = some k →
    (s.busy = false ∨ ov = true) →
    ∃ t, step s = .next t ∧ t.tefe = s.tefe ∧ t.hostQueue = rest ∧
      (s.busy = false ∨ k = 0 ∨ k = 1 → t.readData = readReg s k)

/-- R24: registers 2 to 10 read what they name (a number of 2^32 or more is log entry 4's free value and stands under
a premise); the selectors hold what was written to their field; writes of the other registers but `CMD` are
ignored; registers 16 and above read zero; register `k` is at `REG_BASE + 4k` and no other address is a register.
The writes are stated for `BUSY = 0`; the clause for `BUSY = 1`, that a write of any register but `CMD` does what
it would have done then, is the model's deduction (log entry 7). -/
def Obligations.RegisterMapAccess : Prop :=
  (∀ s : State, Inv s →
    (readReg s 2).toNat = s.errcode.toNat ∧ readReg s 3 = s.errinfo ∧
    (readReg s 4).toNat = s.acc.toNat ∧ (readReg s 5).toNat = s.len.toNat ∧
    (s.ibuf.length < 2 ^ 32 → (readReg s 6).toNat = s.ibuf.length) ∧
    (s.oml.length < 2 ^ 32 → (readReg s 7).toNat = s.oml.length) ∧
    (readReg s 8).toNat = s.pal.length ∧ (readReg s 9).toNat = s.bitw.toNat ∧
    (readReg s 10).toNat = s.pkbuf.length) ∧
  (∀ (s : State) (k : Nat) (v : Word), s.busy = false → k ≠ 0 → k ≠ 11 → k ≠ 12 → k ≠ 13 →
    hostWrite k v s = .next s) ∧
  (∀ (s : State) (v : Word), s.busy = false → ∃ t, hostWrite 11 v s = .next t ∧ t = { s with wsel := t.wsel } ∧
    readReg t 11 = v &&& 0x00000007) ∧
  (∀ (s : State) (v : Word), s.busy = false → ∃ t, hostWrite 12 v s = .next t ∧ t = { s with wchunk := t.wchunk } ∧
    readReg t 12 = v) ∧
  (∀ (s : State) (v : Word), s.busy = false → ∃ t, hostWrite 13 v s = .next t ∧ t = { s with waddr := t.waddr } ∧
    readReg t 13 = v) ∧
  (∀ (s : State) (k : Nat) (v : Word), s.busy = true → k ≠ 0 → ∃ t,
    hostWrite k v { s with busy := false } = .next t ∧ hostWrite k v s = .next { t with busy := true }) ∧
  (∀ (s : State) (k : Nat), 16 ≤ k → readReg s k = 0) ∧
  (∀ (c : Config) (k : Nat), portRegister c (.address (c.regBase + 4 * k)) = some k) ∧
  ∀ (c : Config) (a : Nat), (∀ k, a ≠ c.regBase + 4 * k) → portRegister c (.address a) = none

/-- R32: the read window, for each selector, and the fields of `WDATA`. -/
def Obligations.WindowReadsTheSelectedByte : Prop :=
  ∀ s : State, Inv s →
    (s.wsel = 0 → windowLength s = s.ilen ∧ windowByte s = s.ibuf[s.waddr.toNat]?) ∧
    (s.wsel = 1 →
      (s.wchunk.toNat < s.ocnt → ∃ ch, s.oml[s.wchunk.toNat]? = some ch ∧ windowLength s = ch.length ∧
        windowByte s = ch[s.waddr.toNat]?) ∧
      (s.ocnt ≤ s.wchunk.toNat → windowLength s = 0 ∧ windowByte s = none)) ∧
    (s.wsel = 2 → windowLength s = 3 * s.palsize ∧
      windowByte s = (s.pal[s.waddr.toNat / 3]?).bind fun c => [c.c0, c.c1, c.c2][s.waddr.toNat % 3]?) ∧
    (s.wsel = 3 → windowLength s = (if 1 ≤ s.palsize then 256 else 0) ∧
      windowByte s = s.idx[s.waddr.toNat]?) ∧
    (s.wsel = 4 → windowLength s = s.pklen ∧ windowByte s = s.pkbuf[s.waddr.toNat]?) ∧
    (5 ≤ s.wsel.toNat → windowLength s = 0 ∧ windowByte s = none) ∧
    (s.waddr.toNat < windowLength s → ∃ b, windowByte s = some b ∧
      (readReg s 15).extractLsb' 0 8 = b ∧
      (readReg s 15).extractLsb' 8 8 = hexchar (b.toNat / 16) ∧
      (readReg s 15).extractLsb' 16 8 = hexchar (b.toNat % 16) ∧
      (readReg s 15).extractLsb' 24 7 = 0 ∧ (readReg s 15).getLsbD 31 = true) ∧
    (windowLength s ≤ s.waddr.toNat → readReg s 15 = 0) ∧
    (windowLength s < 2 ^ 32 → (readReg s 14).toNat = windowLength s)

/-! ### System, input buffer and accumulator commands (spec 45, 40, 41) -/

/-- R190; "reset does not execute the command its `CMD` value spells": `CMD` reads 0x0000 and nothing runs. -/
def Obligations.NopChangesNothing : Prop :=
  (∀ s : State, exec .nop s = .next { s with busy := false }) ∧
  readReg State.reset 0 = 0x0000 ∧ State.reset.busy = false

/-- R191: the three error fields are cleared and nothing else; with `ERR = 0` nothing changes. -/
def Obligations.ErrclrClearsErrorFieldsOnly : Prop :=
  (∀ s : State, exec .errclr s = .next { s with busy := false, err := false, errcode := 0, errinfo := 0 }) ∧
  ∀ s : State, Inv s → s.err = false → exec .errclr s = .next { s with busy := false }

/-- R90. -/
def Obligations.IclrEmptiesTheInputBuffer : Prop :=
  ∀ s : State, s.err = false → exec .iclr s = .next { s with busy := false, ibuf := [] }

/-- R91: one octet at offset `ILEN`, or `E_IFULL` with `ILEN` on a full buffer. -/
def Obligations.IpushAppendsOneOctet : Prop :=
  ∀ (s : State) (b : Byte), s.err = false →
    (s.ilen ≠ s.cfg.ibufMax → exec (.ipush b) s = .next { s with busy := false, ibuf := s.ibuf ++ [b] }) ∧
    (s.ilen = s.cfg.ibufMax → exec (.ipush b) s = .next (faultState s 0x02 s.ilen))

/-- R97: in-place conversion, byte `k` from characters `2k` and `2k + 1`, first character the high nibble; its two
faults. -/
def Obligations.Ih2bConvertsInPlace : Prop :=
  ∀ s : State, s.err = false →
    (s.ilen % 2 = 1 → exec .ih2b s = .next (faultState s 0x03 s.ilen)) ∧
    (∀ i, s.ilen % 2 = 0 → FirstNonHex s.ibuf i → exec .ih2b s = .next (faultState s 0x04 i)) ∧
    (s.ilen % 2 = 0 → (∀ c ∈ s.ibuf, isHexDigit c = true) →
      ∃ content, exec .ih2b s = .next { s with busy := false, ibuf := content } ∧
        content.length = s.ilen / 2 ∧
        ∀ k < content.length, ∃ hi lo h l, s.ibuf[2 * k]? = some hi ∧ s.ibuf[2 * k + 1]? = some lo ∧
          hexval hi = some h ∧ hexval lo = some l ∧ content[k]? = some (BitVec.ofNat 8 (16 * h + l)))

/-- R112, R113, R115: clear, add one byte modulo 65536, sum of the raw octets from zero. -/
def Obligations.AccumulatorCommandResults : Prop :=
  ∀ s : State, s.err = false →
    exec .crcclr s = .next { s with busy := false, acc := 0 } ∧
    (∀ b : Byte, ∃ a : Half, exec (.crcadd b) s = .next { s with busy := false, acc := a } ∧
      a.toNat = (s.acc.toNat + b.toNat) % 65536) ∧
    ∃ a : Half, exec .crcraw s = .next { s with busy := false, acc := a } ∧
      a.toNat = (s.ibuf.map BitVec.toNat).sum % 65536

/-- R114: checksum of the input read as hex text, from zero whatever `ACC` held; its two faults. -/
def Obligations.CrchexSumsHexText : Prop :=
  ∀ s : State, s.err = false →
    (s.ilen % 2 = 1 → exec .crchex s = .next (faultState s 0x03 s.ilen)) ∧
    (∀ i, s.ilen % 2 = 0 → FirstNonHex s.ibuf i → exec .crchex s = .next (faultState s 0x04 i)) ∧
    (s.ilen % 2 = 0 → (∀ c ∈ s.ibuf, isHexDigit c = true) →
      ∃ content, hex2b s.ibuf = some content ∧
        exec .crchex s = .next { s with busy := false, acc := sum16 content })

/-! ### Frame builder and list (spec 42, 43) -/

/-- R135, R136: a hex-mode build stores `LEN`, `ACC` and the chunks of one frame, replacing the list or after it, and
nothing else. The chunk count is `(n + 671) div 666` (R146). -/
def Obligations.HexBuildStoresOneFrame : Prop :=
  ∀ (s : State) (content : List Byte), s.err = false → s.ilen ≠ 0 → hex2b s.ibuf = some content →
    content.length ≤ s.cfg.contentMax →
    (listHolds s.cfg ((content.length + 671) / 666) = true →
      exec .bldrH s = .next
        { s with
          busy := false, len := BitVec.ofNat 16 (content.length + 2),
          acc := sum16 (le16 (content.length + 2) ++ content), oml := chunks (frame content) }) ∧
    (listHolds s.cfg (s.ocnt + (content.length + 671) / 666) = true →
      exec .bldaH s = .next
        { s with
          busy := false, len := BitVec.ofNat 16 (content.length + 2),
          acc := sum16 (le16 (content.length + 2) ++ content), oml := s.oml ++ chunks (frame content) })

/-- R137, R138: a raw-mode build does the same with the octets of IBUF as content. -/
def Obligations.RawBuildStoresOneFrame : Prop :=
  ∀ s : State, s.err = false → s.ilen ≠ 0 → s.ilen ≤ s.cfg.contentMax →
    (listHolds s.cfg ((s.ilen + 671) / 666) = true →
      exec .bldrR s = .next
        { s with
          busy := false, len := BitVec.ofNat 16 (s.ilen + 2),
          acc := sum16 (le16 (s.ilen + 2) ++ s.ibuf), oml := chunks (frame s.ibuf) }) ∧
    (listHolds s.cfg (s.ocnt + (s.ilen + 671) / 666) = true →
      exec .bldaR s = .next
        { s with
          busy := false, len := BitVec.ofNat 16 (s.ilen + 2),
          acc := sum16 (le16 (s.ilen + 2) ++ s.ibuf), oml := s.oml ++ chunks (frame s.ibuf) })

/-- R131: with `ILEN = 0` every `BUILD` is a no-op; replace mode does not clear the list. -/
def Obligations.EmptyBuildIsANoOp : Prop :=
  ∀ (s : State) (i : Instr), (i = .bldrH ∨ i = .bldaH ∨ i = .bldrR ∨ i = .bldaR) → s.ilen = 0 →
    exec i s = .next { s with busy := false }

/-- R233 for `BUILD`: odd length, then content length, then the first non-digit, then the capacity of the list; each
leaves everything but the fault fields as it was. -/
def Obligations.BuildFaultPriority : Prop :=
  ∀ (s : State) (append : Bool), s.err = false → s.ilen ≠ 0 →
    (s.ilen % 2 = 1 →
      exec (if append then .bldaH else .bldrH) s = .next (faultState s 0x03 s.ilen)) ∧
    (s.ilen % 2 = 0 → s.cfg.contentMax < s.ilen / 2 →
      exec (if append then .bldaH else .bldrH) s = .next (faultState s 0x05 (s.ilen / 2))) ∧
    (∀ i, s.ilen % 2 = 0 → s.ilen / 2 ≤ s.cfg.contentMax → FirstNonHex s.ibuf i →
      exec (if append then .bldaH else .bldrH) s = .next (faultState s 0x04 i)) ∧
    (∀ content total, hex2b s.ibuf = some content → content.length ≤ s.cfg.contentMax →
      total = (if append then s.ocnt else 0) + (content.length + 671) / 666 → listHolds s.cfg total = false →
      exec (if append then .bldaH else .bldrH) s = .next (faultState s 0x06 total)) ∧
    (s.cfg.contentMax < s.ilen →
      exec (if append then .bldaR else .bldrR) s = .next (faultState s 0x05 s.ilen)) ∧
    ∀ total, s.ilen ≤ s.cfg.contentMax →
      total = (if append then s.ocnt else 0) + (s.ilen + 671) / 666 → listHolds s.cfg total = false →
      exec (if append then .bldaR else .bldrR) s = .next (faultState s 0x06 total)

/-- R152: the list is emptied and nothing else; before a build that succeeds, `LCLR` and append are replace. -/
def Obligations.LclrEmptiesTheList : Prop :=
  (∀ s : State, s.err = false → exec .lclr s = .next { s with busy := false, oml := [] }) ∧
  ∀ s t u : State, s.err = false → s.ilen ≠ 0 → exec .lclr s = .next t → u.err = false →
    (exec .bldaH t = .next u → exec .bldrH s = .next u) ∧ (exec .bldaR t = .next u → exec .bldrR s = .next u)

/-- R70, R126, R127: the Frame field by field, by byte offset. -/
def Obligations.FrameFieldByField : Prop :=
  ∀ content : List Byte, 1 ≤ content.length → content.length ≤ 65533 →
    ∀ n l crc : Nat, n = content.length → l = n + 2 →
      crc = (l % 256 + l / 256 + (content.map BitVec.toNat).sum) % 65536 →
      (frame content).length = n + 6 ∧
      (frame content)[0]? = some 0x01 ∧
      ((frame content)[1]?).map BitVec.toNat = some (l % 256) ∧
      ((frame content)[2]?).map BitVec.toNat = some (l / 256) ∧
      (∀ k < n, (frame content)[3 + k]? = content[k]?) ∧
      ((frame content)[n + 3]?).map BitVec.toNat = some (crc % 256) ∧
      ((frame content)[n + 4]?).map BitVec.toNat = some (crc / 256) ∧
      (frame content)[n + 5]? = some 0x02

/-- R139: a frame parses back to its content, and so does the list a successful replace build leaves. -/
def Obligations.BuiltListDeframesToContent : Prop :=
  (∀ c : List Byte, 1 ≤ c.length → c.length ≤ 65533 → deframe (frame c) = some c) ∧
  ∀ s t : State, s.cfg.wellFormed = true → s.err = false → s.ilen ≠ 0 → t.err = false →
    (∀ content, hex2b s.ibuf = some content → exec .bldrH s = .next t →
      deframe t.oml.flatten = some content) ∧
    (exec .bldrR s = .next t → deframe t.oml.flatten = some s.ibuf)

/-- R145, R146 (a), (b): greedy chunks of 666 bytes, nothing added, dropped or reordered. -/
def Obligations.ChunksCutGreedily : Prop :=
  ∀ f : List Byte, f ≠ [] →
    (chunks f).length = (f.length + 665) / 666 ∧
    (∀ j < (f.length + 665) / 666,
      (chunks f)[j]? = some ((f.drop (666 * j)).take (min (666 * (j + 1)) f.length - 666 * j))) ∧
    (chunks f).flatten = f ∧
    ∀ ch ∈ chunks f, 1 ≤ ch.length ∧ ch.length ≤ 666

/-- R149: cutting the hex text every 1332 characters gives the hex text of the chunks. -/
def Obligations.TextChunkingAgreesWithByteChunking : Prop :=
  ∀ f : List Byte, f ≠ [] →
    cut 1332 ((2 * f.length + 1331) / 1332) (b2hex f) = (chunks f).map b2hex ∧
    textChunks (b2hex f) = (chunks f).map b2hex

/-- R18: `b2hex` character by character, and the two conversions invert each other up to letter case. -/
def Obligations.HexTextInvertsBytes : Prop :=
  (List.range 16).map hexchar =
    [0x30, 0x31, 0x32, 0x33, 0x34, 0x35, 0x36, 0x37, 0x38, 0x39, 0x61, 0x62, 0x63, 0x64, 0x65, 0x66] ∧
  (∀ bs : List Byte, (b2hex bs).length = 2 * bs.length ∧ hex2b (b2hex bs) = some bs ∧
    ∀ i b, bs[i]? = some b → (b2hex bs)[2 * i]? = some (hexchar (b.toNat / 16)) ∧
      (b2hex bs)[2 * i + 1]? = some (hexchar (b.toNat % 16))) ∧
  ∀ text bs : List Byte, hex2b text = some bs →
    b2hex bs = text.map fun c => if 0x41 ≤ c.toNat ∧ c.toNat ≤ 0x46 then c + 0x20 else c

/-- R97, R115: after `IH2B` a raw-mode command does what the hex-mode command would have done before it, faults and
all. -/
def Obligations.ConvertThenRawEqualsHex : Prop :=
  ∀ (s t : State) (append : Bool), s.err = false → exec .ih2b s = .next t → t.err = false →
    (∃ u v, exec (if append then .bldaH else .bldrH) s = .next u ∧
      exec (if append then .bldaR else .bldrR) t = .next v ∧
      v = { u with ibuf := t.ibuf }) ∧
    ∃ u v, exec .crchex s = .next u ∧ exec .crcraw t = .next v ∧ v = { u with ibuf := t.ibuf }

/-- R119: the arithmetic laws of the checksum. -/
def Obligations.ChecksumLaws : Prop :=
  (∀ x y : List Byte, (sum16 (x ++ y)).toNat = ((sum16 x).toNat + (sum16 y).toNat) % 65536) ∧
  (∀ x y : List Byte, x.Perm y → sum16 x = sum16 y) ∧
  (∀ (b : Byte) (k : Nat), (sum16 (List.replicate k b)).toNat = (b.toNat * k) % 65536) ∧
  (∀ x : List Byte, (x.map BitVec.toNat).sum ≤ 255 * x.length) ∧
  (∀ x : List Byte, x.length ≤ 257 → (sum16 x).toNat = (x.map BitVec.toNat).sum) ∧
  (sum16 (List.replicate 258 0xFF)).toNat = 254

/-- R111: `sum16` is the fold of the accumulator step from zero. -/
def Obligations.ChecksumIsTheAccumulatorFold : Prop :=
  (∀ (a : Half) (b : Byte), (accStep a b).toNat = (a.toNat + b.toNat) % 65536) ∧
  sum16 [] = 0 ∧ (∀ (bs : List Byte) (b : Byte), sum16 (bs ++ [b]) = accStep (sum16 bs) b) ∧
  ∀ bs : List Byte, sum16 bs = bs.foldl accStep 0

/-! ### Palette encoder (spec 44) -/

/-- R167, R168: the first-seen palette and its index grid; the old pack is invalidated; `E_PIXLEN` otherwise. -/
def Obligations.PxscanBuildsFirstSeenPalette : Prop :=
  ∀ s : State, s.err = false →
    (s.ilen ≠ 768 → exec .pxscan s = .next (faultState s 0x07 s.ilen)) ∧
    (s.ilen = 768 → ∃ pal idx,
      exec .pxscan s = .next { s with busy := false, pal := pal, idx := idx, bitw := 0, pkbuf := [] } ∧
      1 ≤ pal.length ∧ pal.length ≤ 256 ∧ pal.Nodup ∧ idx.length = 256 ∧
      (∀ i < 256, ∃ k c, idx[i]? = some k ∧ pal[k.toNat]? = some c ∧ k.toNat ≤ i ∧
        s.memRead .ibuf (3 * i) 3 = some [c.c0, c.c1, c.c2]) ∧
      (∀ k < pal.length, ∃ b ∈ idx, b.toNat = k) ∧
      ∀ k, k + 1 < pal.length →
        (idx.findIdx fun b => b.toNat == k) < idx.findIdx fun b => b.toNat == k + 1)

/-- R170, R173, R175: the least sufficient width, `32 × w` bytes, and where every index bit lands; `E_NOSCAN`
without a scan. With the U5 parameter set, the bytes are bit-reversed (R177). -/
def Obligations.PxpackPlacesEveryIndexBit : Prop :=
  ∀ s : State, s.err = false →
    (s.palsize = 0 → exec .pxpack s = .next (faultState s 0x08 0)) ∧
    (1 ≤ s.palsize → s.palsize ≤ 256 → s.idx.length = 256 → ∃ w bytes,
      exec .pxpack s = .next { s with busy := false, bitw := BitVec.ofNat 4 w, pkbuf := bytes } ∧
      1 ≤ w ∧ w ≤ 8 ∧ s.palsize ≤ 2 ^ w ∧ (∀ v, 1 ≤ v → s.palsize ≤ 2 ^ v → w ≤ v) ∧
      bytes.length = 32 * w ∧
      ∀ g < 32 * w, ∀ t < 8, ∃ b k, bytes[g]? = some b ∧ s.idx[(8 * g + t) / w]? = some k ∧
        b.getLsbD (if s.cfg.packMsbFirst then 7 - t else t) = k.getLsbD ((8 * g + t) % w))

/-- R175, "under the reading of rule R172" (decision D21, log entry 8: `pack` with `false`): stream bit `p`
is bit `p mod 8` of byte `p div 8`, and the packed bytes as one little-endian integer are the indices at `w` bits
each. -/
def Obligations.PackedBytesAreOneInteger : Prop :=
  ∀ (w : Nat) (idx : List Byte), 1 ≤ w → w ≤ 8 → idx.length = 256 → (∀ b ∈ idx, b.toNat < 2 ^ w) →
    (∀ p < 256 * w, ∃ b, (pack false w idx)[p / 8]? = some b ∧
      (indexStream w idx)[p]? = some (b.getLsbD (p % 8))) ∧
    ((pack false w idx).zipIdx.map fun x => x.1.toNat * 256 ^ x.2).sum =
      (idx.zipIdx.map fun x => x.1.toNat * 2 ^ (x.2 * w)).sum

/-- R178: the palette block is appended at `ILEN`; `E_NOPACK` before `E_IFULL`. -/
def Obligations.PxemitAppendsThePaletteBlock : Prop :=
  ∀ (s : State) (m : Nat), s.err = false → m = 1 + 3 * s.palsize + s.pklen →
    (s.pklen = 0 → exec .pxemit s = .next (faultState s 0x09 0)) ∧
    (s.pklen ≠ 0 → s.cfg.ibufMax < s.ilen + m → exec .pxemit s = .next (faultState s 0x02 (s.ilen + m))) ∧
    (s.pklen ≠ 0 → s.ilen + m ≤ s.cfg.ibufMax →
      exec .pxemit s = .next
        { s with
          busy := false,
          ibuf := s.ibuf ++ [BitVec.ofNat 8 (s.palsize % 256)] ++
            (s.pal.flatMap fun c => [c.c0, c.c1, c.c2]) ++ s.pkbuf })

/-- R179, under decision D21 (log entry 8, `packMsbFirst = false`): the pixels are recovered from the block that scan, pack,
clear and emit leave in IBUF. -/
def Obligations.PixelsRecoveredFromPaletteBlock : Prop :=
  ∀ s t1 t2 t3 t4 : State, s.err = false → s.ilen = 768 → s.cfg.packMsbFirst = false →
    s.cfg.wellFormed = true →
    exec .pxscan s = .next t1 → exec .pxpack t1 = .next t2 → exec .iclr t2 = .next t3 →
    exec .pxemit t3 = .next t4 →
    t4.err = false ∧
    ∃ (q : Byte) (p w n : Nat), t4.ibuf.head? = some q ∧ p = (if q.toNat = 0 then 256 else q.toNat) ∧
      w = bitw p ∧ t4.ilen = 1 + 3 * p + 32 * w ∧
      n = ((t4.ibuf.drop (1 + 3 * p)).zipIdx.map fun x => x.1.toNat * 256 ^ x.2).sum ∧
      ∀ i < 256, ∃ k, k = n / 2 ^ (i * w) % 2 ^ w ∧ k < p ∧
        t4.memRead .ibuf (1 + 3 * k) 3 = s.memRead .ibuf (3 * i) 3

/-! ### Frames of the commands, and the invariants -/

/-- R66 (a): the appending commands leave every byte of every buffer space alone but the stored ones, `IPUSH` one
byte and `PXEMIT` its block at offset `ILEN` of IBUF. -/
def Obligations.AppendingCommandsKeepOtherBytes : Prop :=
  ∀ (s t : State) (i : Instr) (n : Nat),
    ((∃ b, i = .ipush b ∧ n = 1) ∨ (i = .pxemit ∧ n = 1 + 3 * s.palsize + s.pklen)) →
    exec i s = .next t →
    ∀ (sp : Space) (a : Nat), (sp ≠ .ibuf ∨ a < s.ilen ∨ s.ilen + n ≤ a) → t.byteAt sp a = s.byteAt sp a

/-- R21, R33, R154: a register or buffer that a command leaves different from what it was is one the spec has that
command write. -/
def Obligations.OnlyNamedWritersChangeState : Prop :=
  ∀ (i : Instr) (s t : State), exec i s = .next t →
    (t.acc ≠ s.acc → writesAcc i = true) ∧ (t.len ≠ s.len → writesLen i = true) ∧
    (t.ibuf ≠ s.ibuf → writesIbuf i = true) ∧ (t.oml ≠ s.oml → writesOml i = true) ∧
    (t.pal ≠ s.pal ∨ t.idx ≠ s.idx → writesScan i = true) ∧
    (t.bitw ≠ s.bitw ∨ t.pkbuf ≠ s.pkbuf → writesPack i = true) ∧
    (t.wsel ≠ s.wsel ∨ t.wchunk ≠ s.wchunk ∨ t.waddr ≠ s.waddr → i = .srst)

/-- The invariants of R38 hold after reset. -/
def Obligations.InvariantsHoldAtReset : Prop := Inv State.reset

/-- R38: every step, of the engine or of the host, keeps the invariants. -/
def Obligations.StepKeepsTheInvariants : Prop :=
  ∀ s t : State, Inv s → step s = .next t → Inv t

/-! ### The units byte by byte and bit by bit -/

/-- R96: the serial converter, whatever its latch holds at the start, emits `hex2b` of an even-length text, and holds
one character of an odd one. -/
def Obligations.SerialHexUnitEmitsTheBytes : Prop :=
  ∀ (nib : BitVec 4) (text : List Byte), (∀ c ∈ text, isHexDigit c = true) →
    ∃ u out, hexUnitRun (HexUnit.start nib) text = some (u, out) ∧
      (text.length % 2 = 0 → u.ph = false ∧ hex2b text = some out) ∧
      (text.length % 2 = 1 → u.ph = true ∧ hex2b text.dropLast = some out)

/-- R134, R147: the serial frame builder in series with the serial chunker gives the frame's chunks and its CRC. -/
def Obligations.SerialFrameUnitBuildsTheChunks : Prop :=
  (∀ f : List Byte, (f.foldl chunkUnitStep ChunkUnit.start).finish = chunks f) ∧
  ∀ content : List Byte,
    (frameUnitRun content).out.finish = chunks (frame content) ∧
    (frameUnitRun content).acc = frameCrc content ∧
    (frameUnitRun content).pos = content.length + 6

/-- R176, which rests on R175 and so on decision D21 (log entry 8: `pack` with `false`): the bit-serial
packer writes the packed bytes and ends with an empty group. -/
def Obligations.SerialPackerWritesThePack : Prop :=
  ∀ (w : Nat) (idx : List Byte), 1 ≤ w → w ≤ 8 → idx.length = 256 →
    packUnitRun (indexStream w idx) = ⟨0, 0, pack false w idx⟩

/-! ### The host's own encodings (spec 46) -/

/-- R207: the temperature byte. -/
def Obligations.TemperatureByteIsModulo256 : Prop :=
  (∀ temp : Int, -127 ≤ temp → temp ≤ 128 → ∃ b, tempByte temp = .ok b ∧ (b.toNat : Int) = temp % 256) ∧
  (∀ temp : Int, (temp < -127 ∨ 128 < temp) → tempByte temp = .error .invalidRange) ∧
  ∀ (x y : Int) (b : Byte), tempByte x = .ok b → tempByte y = .ok b → x = y

/-! ### The pixel grid (spec 44) -/

/-- R166: the octets of a pixel grid in row-major order are scanned so that cell `i` is the pixel at column `i mod 16`
of row `i div 16`. -/
def Obligations.PxscanReadsTheGridRowByRow : Prop :=
  ∀ (s : State) (getPixel : Nat → Nat → Color), s.err = false → s.ibuf = gridOctets getPixel →
    ∃ t, exec .pxscan s = .next t ∧ t.err = false ∧
      ∀ i < 256, ∃ k, t.idx[i]? = some k ∧ t.pal[k.toNat]? = some (getPixel (i % 16) (i / 16))
end

