-- ==== Sys2Proof/Laws/State.lean ====
section
/-! SUPPORT. One lemma per field per update of the state, each true by rfl, so that no later proof unfolds an
update. -/

namespace Sys2Proof.Machine

@[simp] theorem complete_cmd (s : State) : (complete s).cmd = s.cmd := rfl
@[simp] theorem complete_busy (s : State) : (complete s).busy = false := rfl
@[simp] theorem complete_err (s : State) : (complete s).err = s.err := rfl
@[simp] theorem complete_errcode (s : State) : (complete s).errcode = s.errcode := rfl
@[simp] theorem complete_errinfo (s : State) : (complete s).errinfo = s.errinfo := rfl
@[simp] theorem complete_acc (s : State) : (complete s).acc = s.acc := rfl
@[simp] theorem complete_len (s : State) : (complete s).len = s.len := rfl
@[simp] theorem complete_ibuf (s : State) : (complete s).ibuf = s.ibuf := rfl
@[simp] theorem complete_oml (s : State) : (complete s).oml = s.oml := rfl
@[simp] theorem complete_pal (s : State) : (complete s).pal = s.pal := rfl
@[simp] theorem complete_idx (s : State) : (complete s).idx = s.idx := rfl
@[simp] theorem complete_bitw (s : State) : (complete s).bitw = s.bitw := rfl
@[simp] theorem complete_pkbuf (s : State) : (complete s).pkbuf = s.pkbuf := rfl
@[simp] theorem complete_wsel (s : State) : (complete s).wsel = s.wsel := rfl
@[simp] theorem complete_wchunk (s : State) : (complete s).wchunk = s.wchunk := rfl
@[simp] theorem complete_waddr (s : State) : (complete s).waddr = s.waddr := rfl
@[simp] theorem complete_cfg (s : State) : (complete s).cfg = s.cfg := rfl
@[simp] theorem complete_hostQueue (s : State) : (complete s).hostQueue = s.hostQueue := rfl
@[simp] theorem complete_readData (s : State) : (complete s).readData = s.readData := rfl
@[simp] theorem complete_freeReads (s : State) : (complete s).freeReads = s.freeReads := rfl

@[simp] theorem raiseFault_cmd (r : Raise) (s : State) : (raiseFault r s).cmd = s.cmd := rfl
@[simp] theorem raiseFault_busy (r : Raise) (s : State) : (raiseFault r s).busy = s.busy := rfl
@[simp] theorem raiseFault_err (r : Raise) (s : State) : (raiseFault r s).err = true := rfl
@[simp] theorem raiseFault_errcode (r : Raise) (s : State) : (raiseFault r s).errcode = r.1.code := rfl
@[simp] theorem raiseFault_errinfo (r : Raise) (s : State) : (raiseFault r s).errinfo = word32 r.2 := rfl
@[simp] theorem raiseFault_acc (r : Raise) (s : State) : (raiseFault r s).acc = s.acc := rfl
@[simp] theorem raiseFault_len (r : Raise) (s : State) : (raiseFault r s).len = s.len := rfl
@[simp] theorem raiseFault_ibuf (r : Raise) (s : State) : (raiseFault r s).ibuf = s.ibuf := rfl
@[simp] theorem raiseFault_oml (r : Raise) (s : State) : (raiseFault r s).oml = s.oml := rfl
@[simp] theorem raiseFault_pal (r : Raise) (s : State) : (raiseFault r s).pal = s.pal := rfl
@[simp] theorem raiseFault_idx (r : Raise) (s : State) : (raiseFault r s).idx = s.idx := rfl
@[simp] theorem raiseFault_bitw (r : Raise) (s : State) : (raiseFault r s).bitw = s.bitw := rfl
@[simp] theorem raiseFault_pkbuf (r : Raise) (s : State) : (raiseFault r s).pkbuf = s.pkbuf := rfl
@[simp] theorem raiseFault_wsel (r : Raise) (s : State) : (raiseFault r s).wsel = s.wsel := rfl
@[simp] theorem raiseFault_wchunk (r : Raise) (s : State) : (raiseFault r s).wchunk = s.wchunk := rfl
@[simp] theorem raiseFault_waddr (r : Raise) (s : State) : (raiseFault r s).waddr = s.waddr := rfl
@[simp] theorem raiseFault_cfg (r : Raise) (s : State) : (raiseFault r s).cfg = s.cfg := rfl
@[simp] theorem raiseFault_hostQueue (r : Raise) (s : State) : (raiseFault r s).hostQueue = s.hostQueue := rfl
@[simp] theorem raiseFault_readData (r : Raise) (s : State) : (raiseFault r s).readData = s.readData := rfl
@[simp] theorem raiseFault_freeReads (r : Raise) (s : State) : (raiseFault r s).freeReads = s.freeReads := rfl

@[simp] theorem leaveError_cmd (s : State) : (leaveError s).cmd = s.cmd := rfl
@[simp] theorem leaveError_busy (s : State) : (leaveError s).busy = s.busy := rfl
@[simp] theorem leaveError_err (s : State) : (leaveError s).err = false := rfl
@[simp] theorem leaveError_errcode (s : State) : (leaveError s).errcode = 0x00 := rfl
@[simp] theorem leaveError_errinfo (s : State) : (leaveError s).errinfo = 0 := rfl
@[simp] theorem leaveError_acc (s : State) : (leaveError s).acc = s.acc := rfl
@[simp] theorem leaveError_len (s : State) : (leaveError s).len = s.len := rfl
@[simp] theorem leaveError_ibuf (s : State) : (leaveError s).ibuf = s.ibuf := rfl
@[simp] theorem leaveError_oml (s : State) : (leaveError s).oml = s.oml := rfl
@[simp] theorem leaveError_pal (s : State) : (leaveError s).pal = s.pal := rfl
@[simp] theorem leaveError_idx (s : State) : (leaveError s).idx = s.idx := rfl
@[simp] theorem leaveError_bitw (s : State) : (leaveError s).bitw = s.bitw := rfl
@[simp] theorem leaveError_pkbuf (s : State) : (leaveError s).pkbuf = s.pkbuf := rfl
@[simp] theorem leaveError_wsel (s : State) : (leaveError s).wsel = s.wsel := rfl
@[simp] theorem leaveError_wchunk (s : State) : (leaveError s).wchunk = s.wchunk := rfl
@[simp] theorem leaveError_waddr (s : State) : (leaveError s).waddr = s.waddr := rfl
@[simp] theorem leaveError_cfg (s : State) : (leaveError s).cfg = s.cfg := rfl
@[simp] theorem leaveError_hostQueue (s : State) : (leaveError s).hostQueue = s.hostQueue := rfl
@[simp] theorem leaveError_readData (s : State) : (leaveError s).readData = s.readData := rfl
@[simp] theorem leaveError_freeReads (s : State) : (leaveError s).freeReads = s.freeReads := rfl

@[simp] theorem clearAll_cmd (s : State) : (clearAll s).cmd = s.cmd := rfl
@[simp] theorem clearAll_busy (s : State) : (clearAll s).busy = s.busy := rfl
@[simp] theorem clearAll_err (s : State) : (clearAll s).err = false := rfl
@[simp] theorem clearAll_errcode (s : State) : (clearAll s).errcode = 0x00 := rfl
@[simp] theorem clearAll_errinfo (s : State) : (clearAll s).errinfo = 0 := rfl
@[simp] theorem clearAll_acc (s : State) : (clearAll s).acc = 0x0000 := rfl
@[simp] theorem clearAll_len (s : State) : (clearAll s).len = 0x0000 := rfl
@[simp] theorem clearAll_ibuf (s : State) : (clearAll s).ibuf = [] := rfl
@[simp] theorem clearAll_oml (s : State) : (clearAll s).oml = [] := rfl
@[simp] theorem clearAll_pal (s : State) : (clearAll s).pal = [] := rfl
@[simp] theorem clearAll_idx (s : State) : (clearAll s).idx = [] := rfl
@[simp] theorem clearAll_bitw (s : State) : (clearAll s).bitw = 0 := rfl
@[simp] theorem clearAll_pkbuf (s : State) : (clearAll s).pkbuf = [] := rfl
@[simp] theorem clearAll_wsel (s : State) : (clearAll s).wsel = 0 := rfl
@[simp] theorem clearAll_wchunk (s : State) : (clearAll s).wchunk = 0 := rfl
@[simp] theorem clearAll_waddr (s : State) : (clearAll s).waddr = 0 := rfl
@[simp] theorem clearAll_cfg (s : State) : (clearAll s).cfg = s.cfg := rfl
@[simp] theorem clearAll_hostQueue (s : State) : (clearAll s).hostQueue = s.hostQueue := rfl
@[simp] theorem clearAll_readData (s : State) : (clearAll s).readData = s.readData := rfl
@[simp] theorem clearAll_freeReads (s : State) : (clearAll s).freeReads = s.freeReads := rfl

@[simp] theorem resetInput_cmd (s : State) : (resetInput s).cmd = 0x0000 := rfl
@[simp] theorem resetInput_busy (s : State) : (resetInput s).busy = false := rfl
@[simp] theorem resetInput_err (s : State) : (resetInput s).err = false := rfl
@[simp] theorem resetInput_errcode (s : State) : (resetInput s).errcode = 0x00 := rfl
@[simp] theorem resetInput_errinfo (s : State) : (resetInput s).errinfo = 0 := rfl
@[simp] theorem resetInput_acc (s : State) : (resetInput s).acc = 0x0000 := rfl
@[simp] theorem resetInput_len (s : State) : (resetInput s).len = 0x0000 := rfl
@[simp] theorem resetInput_ibuf (s : State) : (resetInput s).ibuf = [] := rfl
@[simp] theorem resetInput_oml (s : State) : (resetInput s).oml = [] := rfl
@[simp] theorem resetInput_pal (s : State) : (resetInput s).pal = [] := rfl
@[simp] theorem resetInput_idx (s : State) : (resetInput s).idx = [] := rfl
@[simp] theorem resetInput_bitw (s : State) : (resetInput s).bitw = 0 := rfl
@[simp] theorem resetInput_pkbuf (s : State) : (resetInput s).pkbuf = [] := rfl
@[simp] theorem resetInput_wsel (s : State) : (resetInput s).wsel = 0 := rfl
@[simp] theorem resetInput_wchunk (s : State) : (resetInput s).wchunk = 0 := rfl
@[simp] theorem resetInput_waddr (s : State) : (resetInput s).waddr = 0 := rfl
@[simp] theorem resetInput_cfg (s : State) : (resetInput s).cfg = s.cfg := rfl
@[simp] theorem resetInput_hostQueue (s : State) : (resetInput s).hostQueue = s.hostQueue := rfl
@[simp] theorem resetInput_readData (s : State) : (resetInput s).readData = s.readData := rfl
@[simp] theorem resetInput_freeReads (s : State) : (resetInput s).freeReads = s.freeReads := rfl

@[simp] theorem ibufAppend_cmd (s : State) (v : List Byte) : (s.ibufAppend v).cmd = s.cmd := rfl
@[simp] theorem ibufAppend_busy (s : State) (v : List Byte) : (s.ibufAppend v).busy = s.busy := rfl
@[simp] theorem ibufAppend_err (s : State) (v : List Byte) : (s.ibufAppend v).err = s.err := rfl
@[simp] theorem ibufAppend_errcode (s : State) (v : List Byte) : (s.ibufAppend v).errcode = s.errcode := rfl
@[simp] theorem ibufAppend_errinfo (s : State) (v : List Byte) : (s.ibufAppend v).errinfo = s.errinfo := rfl
@[simp] theorem ibufAppend_acc (s : State) (v : List Byte) : (s.ibufAppend v).acc = s.acc := rfl
@[simp] theorem ibufAppend_len (s : State) (v : List Byte) : (s.ibufAppend v).len = s.len := rfl
@[simp] theorem ibufAppend_ibuf (s : State) (v : List Byte) : (s.ibufAppend v).ibuf = bufWrite s.ibuf s.ilen v := rfl
@[simp] theorem ibufAppend_oml (s : State) (v : List Byte) : (s.ibufAppend v).oml = s.oml := rfl
@[simp] theorem ibufAppend_pal (s : State) (v : List Byte) : (s.ibufAppend v).pal = s.pal := rfl
@[simp] theorem ibufAppend_idx (s : State) (v : List Byte) : (s.ibufAppend v).idx = s.idx := rfl
@[simp] theorem ibufAppend_bitw (s : State) (v : List Byte) : (s.ibufAppend v).bitw = s.bitw := rfl
@[simp] theorem ibufAppend_pkbuf (s : State) (v : List Byte) : (s.ibufAppend v).pkbuf = s.pkbuf := rfl
@[simp] theorem ibufAppend_wsel (s : State) (v : List Byte) : (s.ibufAppend v).wsel = s.wsel := rfl
@[simp] theorem ibufAppend_wchunk (s : State) (v : List Byte) : (s.ibufAppend v).wchunk = s.wchunk := rfl
@[simp] theorem ibufAppend_waddr (s : State) (v : List Byte) : (s.ibufAppend v).waddr = s.waddr := rfl
@[simp] theorem ibufAppend_cfg (s : State) (v : List Byte) : (s.ibufAppend v).cfg = s.cfg := rfl
@[simp] theorem ibufAppend_hostQueue (s : State) (v : List Byte) : (s.ibufAppend v).hostQueue = s.hostQueue := rfl
@[simp] theorem ibufAppend_readData (s : State) (v : List Byte) : (s.ibufAppend v).readData = s.readData := rfl
@[simp] theorem ibufAppend_freeReads (s : State) (v : List Byte) : (s.ibufAppend v).freeReads = s.freeReads := rfl

@[simp] theorem storeFrame_cmd (s : State) (old : List (List Byte)) (c : List Byte) : (storeFrame s old c).cmd = s.cmd := rfl
@[simp] theorem storeFrame_busy (s : State) (old : List (List Byte)) (c : List Byte) : (storeFrame s old c).busy = s.busy := rfl
@[simp] theorem storeFrame_err (s : State) (old : List (List Byte)) (c : List Byte) : (storeFrame s old c).err = s.err := rfl
@[simp] theorem storeFrame_errcode (s : State) (old : List (List Byte)) (c : List Byte) : (storeFrame s old c).errcode = s.errcode := rfl
@[simp] theorem storeFrame_errinfo (s : State) (old : List (List Byte)) (c : List Byte) : (storeFrame s old c).errinfo = s.errinfo := rfl
@[simp] theorem storeFrame_acc (s : State) (old : List (List Byte)) (c : List Byte) : (storeFrame s old c).acc = frameCrc c := rfl
@[simp] theorem storeFrame_len (s : State) (old : List (List Byte)) (c : List Byte) : (storeFrame s old c).len = BitVec.ofNat 16 (frameLength c) := rfl
@[simp] theorem storeFrame_ibuf (s : State) (old : List (List Byte)) (c : List Byte) : (storeFrame s old c).ibuf = s.ibuf := rfl
@[simp] theorem storeFrame_oml (s : State) (old : List (List Byte)) (c : List Byte) : (storeFrame s old c).oml = old ++ chunks (frame c) := rfl
@[simp] theorem storeFrame_pal (s : State) (old : List (List Byte)) (c : List Byte) : (storeFrame s old c).pal = s.pal := rfl
@[simp] theorem storeFrame_idx (s : State) (old : List (List Byte)) (c : List Byte) : (storeFrame s old c).idx = s.idx := rfl
@[simp] theorem storeFrame_bitw (s : State) (old : List (List Byte)) (c : List Byte) : (storeFrame s old c).bitw = s.bitw := rfl
@[simp] theorem storeFrame_pkbuf (s : State) (old : List (List Byte)) (c : List Byte) : (storeFrame s old c).pkbuf = s.pkbuf := rfl
@[simp] theorem storeFrame_wsel (s : State) (old : List (List Byte)) (c : List Byte) : (storeFrame s old c).wsel = s.wsel := rfl
@[simp] theorem storeFrame_wchunk (s : State) (old : List (List Byte)) (c : List Byte) : (storeFrame s old c).wchunk = s.wchunk := rfl
@[simp] theorem storeFrame_waddr (s : State) (old : List (List Byte)) (c : List Byte) : (storeFrame s old c).waddr = s.waddr := rfl
@[simp] theorem storeFrame_cfg (s : State) (old : List (List Byte)) (c : List Byte) : (storeFrame s old c).cfg = s.cfg := rfl
@[simp] theorem storeFrame_hostQueue (s : State) (old : List (List Byte)) (c : List Byte) : (storeFrame s old c).hostQueue = s.hostQueue := rfl
@[simp] theorem storeFrame_readData (s : State) (old : List (List Byte)) (c : List Byte) : (storeFrame s old c).readData = s.readData := rfl
@[simp] theorem storeFrame_freeReads (s : State) (old : List (List Byte)) (c : List Byte) : (storeFrame s old c).freeReads = s.freeReads := rfl

@[simp] theorem storeScan_cmd (s : State) (f : List Color × List Byte) : (storeScan s f).cmd = s.cmd := rfl
@[simp] theorem storeScan_busy (s : State) (f : List Color × List Byte) : (storeScan s f).busy = s.busy := rfl
@[simp] theorem storeScan_err (s : State) (f : List Color × List Byte) : (storeScan s f).err = s.err := rfl
@[simp] theorem storeScan_errcode (s : State) (f : List Color × List Byte) : (storeScan s f).errcode = s.errcode := rfl
@[simp] theorem storeScan_errinfo (s : State) (f : List Color × List Byte) : (storeScan s f).errinfo = s.errinfo := rfl
@[simp] theorem storeScan_acc (s : State) (f : List Color × List Byte) : (storeScan s f).acc = s.acc := rfl
@[simp] theorem storeScan_len (s : State) (f : List Color × List Byte) : (storeScan s f).len = s.len := rfl
@[simp] theorem storeScan_ibuf (s : State) (f : List Color × List Byte) : (storeScan s f).ibuf = s.ibuf := rfl
@[simp] theorem storeScan_oml (s : State) (f : List Color × List Byte) : (storeScan s f).oml = s.oml := rfl
@[simp] theorem storeScan_pal (s : State) (f : List Color × List Byte) : (storeScan s f).pal = f.1 := rfl
@[simp] theorem storeScan_idx (s : State) (f : List Color × List Byte) : (storeScan s f).idx = f.2 := rfl
@[simp] theorem storeScan_bitw (s : State) (f : List Color × List Byte) : (storeScan s f).bitw = 0 := rfl
@[simp] theorem storeScan_pkbuf (s : State) (f : List Color × List Byte) : (storeScan s f).pkbuf = [] := rfl
@[simp] theorem storeScan_wsel (s : State) (f : List Color × List Byte) : (storeScan s f).wsel = s.wsel := rfl
@[simp] theorem storeScan_wchunk (s : State) (f : List Color × List Byte) : (storeScan s f).wchunk = s.wchunk := rfl
@[simp] theorem storeScan_waddr (s : State) (f : List Color × List Byte) : (storeScan s f).waddr = s.waddr := rfl
@[simp] theorem storeScan_cfg (s : State) (f : List Color × List Byte) : (storeScan s f).cfg = s.cfg := rfl
@[simp] theorem storeScan_hostQueue (s : State) (f : List Color × List Byte) : (storeScan s f).hostQueue = s.hostQueue := rfl
@[simp] theorem storeScan_readData (s : State) (f : List Color × List Byte) : (storeScan s f).readData = s.readData := rfl
@[simp] theorem storeScan_freeReads (s : State) (f : List Color × List Byte) : (storeScan s f).freeReads = s.freeReads := rfl

@[simp] theorem storePack_cmd (s : State) : (storePack s).cmd = s.cmd := rfl
@[simp] theorem storePack_busy (s : State) : (storePack s).busy = s.busy := rfl
@[simp] theorem storePack_err (s : State) : (storePack s).err = s.err := rfl
@[simp] theorem storePack_errcode (s : State) : (storePack s).errcode = s.errcode := rfl
@[simp] theorem storePack_errinfo (s : State) : (storePack s).errinfo = s.errinfo := rfl
@[simp] theorem storePack_acc (s : State) : (storePack s).acc = s.acc := rfl
@[simp] theorem storePack_len (s : State) : (storePack s).len = s.len := rfl
@[simp] theorem storePack_ibuf (s : State) : (storePack s).ibuf = s.ibuf := rfl
@[simp] theorem storePack_oml (s : State) : (storePack s).oml = s.oml := rfl
@[simp] theorem storePack_pal (s : State) : (storePack s).pal = s.pal := rfl
@[simp] theorem storePack_idx (s : State) : (storePack s).idx = s.idx := rfl
@[simp] theorem storePack_bitw (s : State) : (storePack s).bitw = BitVec.ofNat 4 (bitw s.palsize) := rfl
@[simp] theorem storePack_pkbuf (s : State) : (storePack s).pkbuf = pack s.cfg.packMsbFirst (bitw s.palsize) s.idx := rfl
@[simp] theorem storePack_wsel (s : State) : (storePack s).wsel = s.wsel := rfl
@[simp] theorem storePack_wchunk (s : State) : (storePack s).wchunk = s.wchunk := rfl
@[simp] theorem storePack_waddr (s : State) : (storePack s).waddr = s.waddr := rfl
@[simp] theorem storePack_cfg (s : State) : (storePack s).cfg = s.cfg := rfl
@[simp] theorem storePack_hostQueue (s : State) : (storePack s).hostQueue = s.hostQueue := rfl
@[simp] theorem storePack_readData (s : State) : (storePack s).readData = s.readData := rfl
@[simp] theorem storePack_freeReads (s : State) : (storePack s).freeReads = s.freeReads := rfl

@[simp] theorem latchCommand_cmd (s : State) (w : Half) : (latchCommand s w).cmd = w := rfl
@[simp] theorem latchCommand_busy (s : State) (w : Half) : (latchCommand s w).busy = true := rfl
@[simp] theorem latchCommand_err (s : State) (w : Half) : (latchCommand s w).err = s.err := rfl
@[simp] theorem latchCommand_errcode (s : State) (w : Half) : (latchCommand s w).errcode = s.errcode := rfl
@[simp] theorem latchCommand_errinfo (s : State) (w : Half) : (latchCommand s w).errinfo = s.errinfo := rfl
@[simp] theorem latchCommand_acc (s : State) (w : Half) : (latchCommand s w).acc = s.acc := rfl
@[simp] theorem latchCommand_len (s : State) (w : Half) : (latchCommand s w).len = s.len := rfl
@[simp] theorem latchCommand_ibuf (s : State) (w : Half) : (latchCommand s w).ibuf = s.ibuf := rfl
@[simp] theorem latchCommand_oml (s : State) (w : Half) : (latchCommand s w).oml = s.oml := rfl
@[simp] theorem latchCommand_pal (s : State) (w : Half) : (latchCommand s w).pal = s.pal := rfl
@[simp] theorem latchCommand_idx (s : State) (w : Half) : (latchCommand s w).idx = s.idx := rfl
@[simp] theorem latchCommand_bitw (s : State) (w : Half) : (latchCommand s w).bitw = s.bitw := rfl
@[simp] theorem latchCommand_pkbuf (s : State) (w : Half) : (latchCommand s w).pkbuf = s.pkbuf := rfl
@[simp] theorem latchCommand_wsel (s : State) (w : Half) : (latchCommand s w).wsel = s.wsel := rfl
@[simp] theorem latchCommand_wchunk (s : State) (w : Half) : (latchCommand s w).wchunk = s.wchunk := rfl
@[simp] theorem latchCommand_waddr (s : State) (w : Half) : (latchCommand s w).waddr = s.waddr := rfl
@[simp] theorem latchCommand_cfg (s : State) (w : Half) : (latchCommand s w).cfg = s.cfg := rfl
@[simp] theorem latchCommand_hostQueue (s : State) (w : Half) : (latchCommand s w).hostQueue = s.hostQueue.dropWhile (·.overlap) := rfl
@[simp] theorem latchCommand_readData (s : State) (w : Half) : (latchCommand s w).readData = s.readData := rfl
@[simp] theorem latchCommand_freeReads (s : State) (w : Half) : (latchCommand s w).freeReads = s.freeReads := rfl

@[simp] theorem hostRead_cmd (k : Nat) (s : State) : (hostRead k s).cmd = s.cmd := rfl
@[simp] theorem hostRead_busy (k : Nat) (s : State) : (hostRead k s).busy = s.busy := rfl
@[simp] theorem hostRead_err (k : Nat) (s : State) : (hostRead k s).err = s.err := rfl
@[simp] theorem hostRead_errcode (k : Nat) (s : State) : (hostRead k s).errcode = s.errcode := rfl
@[simp] theorem hostRead_errinfo (k : Nat) (s : State) : (hostRead k s).errinfo = s.errinfo := rfl
@[simp] theorem hostRead_acc (k : Nat) (s : State) : (hostRead k s).acc = s.acc := rfl
@[simp] theorem hostRead_len (k : Nat) (s : State) : (hostRead k s).len = s.len := rfl
@[simp] theorem hostRead_ibuf (k : Nat) (s : State) : (hostRead k s).ibuf = s.ibuf := rfl
@[simp] theorem hostRead_oml (k : Nat) (s : State) : (hostRead k s).oml = s.oml := rfl
@[simp] theorem hostRead_pal (k : Nat) (s : State) : (hostRead k s).pal = s.pal := rfl
@[simp] theorem hostRead_idx (k : Nat) (s : State) : (hostRead k s).idx = s.idx := rfl
@[simp] theorem hostRead_bitw (k : Nat) (s : State) : (hostRead k s).bitw = s.bitw := rfl
@[simp] theorem hostRead_pkbuf (k : Nat) (s : State) : (hostRead k s).pkbuf = s.pkbuf := rfl
@[simp] theorem hostRead_wsel (k : Nat) (s : State) : (hostRead k s).wsel = s.wsel := rfl
@[simp] theorem hostRead_wchunk (k : Nat) (s : State) : (hostRead k s).wchunk = s.wchunk := rfl
@[simp] theorem hostRead_waddr (k : Nat) (s : State) : (hostRead k s).waddr = s.waddr := rfl
@[simp] theorem hostRead_cfg (k : Nat) (s : State) : (hostRead k s).cfg = s.cfg := rfl
@[simp] theorem hostRead_hostQueue (k : Nat) (s : State) : (hostRead k s).hostQueue = s.hostQueue := rfl
@[simp] theorem hostRead_readData (k : Nat) (s : State) : (hostRead k s).readData = if s.busy && k != 0 && k != 1 then Config.freeRead s.freeReads else readReg s k := rfl
@[simp] theorem hostRead_freeReads (k : Nat) (s : State) : (hostRead k s).freeReads = s.freeReads + 1 := rfl

end Sys2Proof.Machine
end

