-- ==== Sys2Proof/Laws/Ops.lean ====
section
/-! SUPPORT. What each shared operation can do, said once: completion and error-stop, the append, the hex reading, the
build, and the canonical form of the buffers. -/

namespace Sys2Proof.Machine

theorem command_of_err {s : State} (e : Except Raise State) (h : s.err = true) :
    command s e = .next (complete s) := by simp [command, h]

theorem command_ok {s : State} (t : State) (h : s.err = false) :
    command s (.ok t) = .next (complete t) := by simp [command, h, settle]

theorem command_error {s : State} (r : Raise) (h : s.err = false) :
    command s (.error r) = .next (complete (raiseFault r s)) := by simp [command, h, settle]

/-- Everything a command under the error-stop can answer. -/
theorem command_cases {s t : State} {e : Except Raise State} (h : command s e = .next t) :
    (s.err = true ∧ t = complete s) ∨
    (s.err = false ∧ ∃ u, e = .ok u ∧ t = complete u) ∨
    (s.err = false ∧ ∃ r, e = .error r ∧ t = complete (raiseFault r s)) := by
  cases hs : s.err with
  | true =>
    rw [command_of_err e hs] at h
    injection h with h
    exact .inl ⟨rfl, h.symm⟩
  | false =>
    cases e with
    | ok u =>
      rw [command_ok u hs] at h
      injection h with h
      exact .inr (.inl ⟨rfl, u, rfl, h.symm⟩)
    | error r =>
      rw [command_error r hs] at h
      injection h with h
      exact .inr (.inr ⟨rfl, r, rfl, h.symm⟩)

/-- Writing at the end of a buffer appends. -/
theorem bufWrite_at_end (buf v : List Byte) : bufWrite buf buf.length v = buf ++ v := by
  simp [bufWrite]

theorem ibufAppend_eq (s : State) (v : List Byte) : s.ibufAppend v = { s with ibuf := s.ibuf ++ v } := by
  simp [State.ibufAppend, State.ilen, bufWrite_at_end]

/-- `hex2b` halves the length. -/
theorem hex2b_length : ∀ {s content : List Byte}, hex2b s = some content → s.length = 2 * content.length
  | [], content, h => by
    simp only [hex2b, Option.some.injEq] at h
    simp [← h]
  | [_], content, h => by simp [hex2b] at h
  | a :: b :: rest, content, h => by
    simp only [hex2b] at h
    split at h
    · rename_i x y bs hx hy hbs
      injection h with h
      have := hex2b_length hbs
      simp [← h, this]
      omega
    · simp at h

/-- Everything the hex reading of IBUF can answer. -/
theorem hexOperand_cases (s : State) :
    (s.ilen % 2 = 1 ∧ hexOperand s = .error (.oddhex, s.ilen)) ∨
    (s.ilen % 2 = 0 ∧ hex2b s.ibuf = none ∧
      hexOperand s = .error (.badhex, s.ibuf.findIdx fun c => !isHexDigit c)) ∨
    ∃ content, hex2b s.ibuf = some content ∧ s.ilen = 2 * content.length ∧ hexOperand s = .ok content := by
  by_cases hp : s.ibuf.length % 2 = 1
  · exact .inl ⟨hp, by simp [hexOperand, hexcheck, hp]⟩
  · cases hh : hex2b s.ibuf with
    | none => exact .inr (.inl ⟨by simp only [State.ilen]; omega, rfl, by simp [hexOperand, hexcheck, hp, hh]⟩)
    | some c => exact .inr (.inr ⟨c, rfl, hex2b_length hh, by simp [hexOperand, hexcheck, hp, hh]⟩)

/-- Placing a frame stores it where the list holds the chunks, and reports the count that would result where it
does not. -/
theorem placeFrame_cases (s : State) (old : List (List Byte)) (content : List Byte) :
    (listHolds s.cfg (old.length + (chunks (frame content)).length) = true ∧
      placeFrame s old content = .ok (storeFrame s old content)) ∨
    (listHolds s.cfg (old.length + (chunks (frame content)).length) = false ∧
      placeFrame s old content = .error (.listfull, old.length + (chunks (frame content)).length)) := by
  cases h : listHolds s.cfg (old.length + (chunks (frame content)).length) <;> simp [placeFrame, h]

/-- A `BUILD` that does not fault is a no-op on an empty IBUF or places one frame, whose content is within the
limit and fits the list. -/
theorem build_ok_cases {a r : Bool} {s t : State} (h : build a r s = .ok t) :
    (s.ilen = 0 ∧ t = s) ∨
    ∃ content, s.ilen ≠ 0 ∧ buildContent r s = .ok content ∧
      listHolds s.cfg ((if a then s.oml else []).length + (chunks (frame content)).length) = true ∧
      t = storeFrame s (if a then s.oml else []) content := by
  unfold build at h
  split at h
  · rename_i h0
    injection h with h
    exact .inl ⟨h0, h.symm⟩
  · rename_i h0
    right
    cases hc : buildContent r s with
    | error e => simp [hc] at h
    | ok content =>
      replace h : placeFrame s (if a then s.oml else []) content = .ok t := by rwa [hc] at h
      rcases placeFrame_cases s (if a then s.oml else []) content with ⟨hl, he⟩ | ⟨-, he⟩
      · rw [he] at h
        injection h with h
        exact ⟨content, h0, rfl, hl, h.symm⟩
      · simp [he] at h

theorem rawContent_ok {s : State} {content : List Byte} (h : rawContent s = .ok content) :
    content = s.ibuf ∧ content.length ≤ s.cfg.contentMax := by
  unfold rawContent at h
  split at h
  · simp at h
  · injection h with h
    subst h
    exact ⟨rfl, by rename_i hl; simpa [State.ilen] using hl⟩

theorem hexContent_ok {s : State} {content : List Byte} (h : hexContent s = .ok content) :
    hex2b s.ibuf = some content ∧ s.ilen = 2 * content.length ∧ content.length ≤ s.cfg.contentMax := by
  unfold hexContent at h
  split at h
  · simp at h
  · split at h
    · simp at h
    · rcases hexOperand_cases s with ⟨-, he⟩ | ⟨-, -, he⟩ | ⟨c, hc, hl, he⟩
      · simp [he] at h
      · simp [he] at h
      · rw [he] at h
        injection h with h
        subst h
        exact ⟨hc, hl, by omega⟩

/-- One scanned cell either reuses an index or enters the colour as the next entry. -/
theorem scanStep_cases (f : List Color × List Byte) (c : Color) :
    (∃ k, f.1.findIdx? (· == c) = some k ∧ scanStep f c = (f.1, f.2 ++ [BitVec.ofNat 8 k])) ∨
    (f.1.findIdx? (· == c) = none ∧
      scanStep f c = (f.1 ++ [c], f.2 ++ [BitVec.ofNat 8 f.1.length])) := by
  unfold scanStep
  cases h : f.1.findIdx? (· == c) with
  | some k => exact .inl ⟨k, rfl, rfl⟩
  | none => exact .inr ⟨rfl, rfl⟩

@[simp] theorem cut_length {α : Type} (m k : Nat) (xs : List α) : (cut m k xs).length = k := by
  induction k generalizing xs with
  | zero => rfl
  | succ k ih => simp [cut, ih]

@[simp] theorem pack_length (b : Bool) (w : Nat) (idx : List Byte) : (pack b w idx).length = 32 * w := by
  simp [pack]

theorem bitw_pos (p : Nat) : 1 ≤ bitw p := by
  unfold bitw
  split
  · rename_i w h
    have := List.mem_of_find?_eq_some h
    simp at this
    omega
  · omega

theorem bitw_le (p : Nat) : bitw p ≤ 8 := by
  unfold bitw
  split
  · rename_i w h
    have := List.mem_of_find?_eq_some h
    simp at this
    omega
  · omega

/-- The transition taken, by who moves (`advance`). -/
theorem advance_cases (s : State) :
    (s.hostQueue = [] ∧ s.busy = false ∧ advance s = .next s) ∨
    (s.busy = true ∧ (∀ ev ∈ s.hostQueue.head?, ev.overlap = false) ∧ advance s = runLatched s) ∨
    ∃ ev rest, s.hostQueue = ev :: rest ∧ (s.busy = false ∨ ev.overlap = true) ∧
      advance s = hostAct ev.op { s with hostQueue := rest } := by
  cases hq : s.hostQueue with
  | nil => cases hb : s.busy <;> simp [advance, hq, hb]
  | cons ev rest =>
    cases hb : s.busy <;> cases ho : ev.overlap <;> simp [advance, hq, hb, ho, hostNext]

/-! Every operation on the buffers keeps `Memory.wf`. -/

theorem memory_wf_reset : Memory.wf State.reset = true := by decide

theorem memory_wf_clearAll (s : State) : Memory.wf (clearAll s) = true := by simp [Memory.wf]

theorem memory_wf_ibufAppend (s : State) (v : List Byte) : Memory.wf (s.ibufAppend v) = Memory.wf s := rfl

theorem memory_wf_storeFrame (s : State) (old : List (List Byte)) (c : List Byte) :
    Memory.wf (storeFrame s old c) = Memory.wf s := rfl

theorem memory_wf_raiseFault (r : Raise) (s : State) : Memory.wf (raiseFault r s) = Memory.wf s := rfl

theorem scan_palette_ne_nil (f : List Color × List Byte) (c : Color) :
    (scanStep f c).1 ≠ [] := by
  rcases scanStep_cases f c with ⟨k, hk, he⟩ | ⟨-, he⟩
  · rw [he]
    intro h0
    simp only at h0
    simp [h0] at hk
  · simp [he]

theorem scan_fold_palette (cells : List Color) :
    ∀ f : List Color × List Byte, (f.1 ≠ [] ∨ f.2 = []) →
      (cells.foldl scanStep f).1 ≠ [] ∨ (cells.foldl scanStep f).2 = [] := by
  induction cells with
  | nil => exact fun f h => h
  | cons c cells ih => exact fun f _ => ih _ (.inl (scan_palette_ne_nil f c))

theorem memory_wf_storeScan (s : State) (cells : List Color) : Memory.wf (storeScan s (scan cells)) = true := by
  have := scan_fold_palette cells ([], []) (.inr rfl)
  simp only [Memory.wf, storeScan_pal, storeScan_idx, storeScan_bitw, storeScan_pkbuf, scan]
  rcases this with h | h <;> simp [h]

theorem memory_wf_storePack (s : State) (h : Memory.wf s = true) : Memory.wf (storePack s) = true := by
  have h1 := bitw_pos s.palsize
  have h8 := bitw_le s.palsize
  have hp : (pack s.cfg.packMsbFirst (bitw s.palsize) s.idx).isEmpty = false := by
    rw [List.isEmpty_eq_false_iff, ← List.length_pos_iff, pack_length]
    omega
  have hb : BitVec.ofNat 4 (bitw s.palsize) ≠ 0 := by
    intro h0
    have := congrArg BitVec.toNat h0
    simp at this
    omega
  simp only [Memory.wf, storePack_pal, storePack_idx, storePack_bitw, storePack_pkbuf, hp, hb] at h ⊢
  simp_all

end Sys2Proof.Machine
end

