-- ==== Sys2Proof/Laws/Exec.lean ====
section
/-! SUPPORT. What a command, the engine and a host access can do, said once: the inversion lemmas that whole-machine
proofs cite instead of unfolding `exec`. -/

namespace Sys2Proof.Machine

/-- The writes of each command that is performed and does not fault, with the conditions under which it does not. -/
inductive Wrote (s : State) : Instr → State → Prop
  | nop : Wrote s .nop s
  | iclr : Wrote s .iclr { s with ibuf := [] }
  | ipush (b : Byte) (room : s.ilen ≠ s.cfg.ibufMax) : Wrote s (.ipush b) { s with ibuf := s.ibuf ++ [b] }
  | ih2b (content : List Byte) (hex : hex2b s.ibuf = some content) : Wrote s .ih2b { s with ibuf := content }
  | crcclr : Wrote s .crcclr { s with acc := 0 }
  | crcadd (b : Byte) : Wrote s (.crcadd b) { s with acc := accStep s.acc b }
  | crchex (content : List Byte) (hex : hex2b s.ibuf = some content) :
      Wrote s .crchex { s with acc := sum16 content }
  | crcraw : Wrote s .crcraw { s with acc := sum16 s.ibuf }
  | emptyBuild (i : Instr) (bld : i = .bldrH ∨ i = .bldaH ∨ i = .bldrR ∨ i = .bldaR) (empty : s.ilen = 0) :
      Wrote s i s
  | frameBuild (i : Instr) (old : List (List Byte)) (content : List Byte)
      (how : (i = .bldrH ∧ old = [] ∧ hex2b s.ibuf = some content) ∨
        (i = .bldaH ∧ old = s.oml ∧ hex2b s.ibuf = some content) ∨
        (i = .bldrR ∧ old = [] ∧ content = s.ibuf) ∨ (i = .bldaR ∧ old = s.oml ∧ content = s.ibuf))
      (some_content : 1 ≤ content.length) (within : content.length ≤ s.cfg.contentMax)
      (room : listHolds s.cfg (old.length + (chunks (frame content)).length) = true) :
      Wrote s i (storeFrame s old content)
  | lclr : Wrote s .lclr { s with oml := [] }
  | pxscan (full : s.ilen = 3 * gridCells) : Wrote s .pxscan (storeScan s (scan (pixelCells s.ibuf)))
  | pxpack (scanned : s.palsize ≠ 0) : Wrote s .pxpack (storePack s)
  | pxemit (packed : s.pklen ≠ 0) (room : s.ilen + (1 + 3 * s.palsize + s.pklen) ≤ s.cfg.ibufMax) :
      Wrote s .pxemit { s with ibuf := s.ibuf ++ paletteBlock s }

/-- Everything a command can do: nothing under the error-stop, leave the error state, reset, one fault entry, or its
own writes; then it completes. -/
inductive Did (s : State) : Instr → State → Prop
  | ignored (i : Instr) (stop : s.err = true) (other : i ≠ .errclr ∧ i ≠ .srst) : Did s i (complete s)
  | errclr : Did s .errclr (complete (leaveError s))
  | srst : Did s .srst (complete (clearAll s))
  | raised (i : Instr) (r : Raise) (ok : s.err = false) (other : i ≠ .errclr ∧ i ≠ .srst) :
      Did s i (complete (raiseFault r s))
  | wrote (i : Instr) (u : State) (ok : s.err = false) (w : Wrote s i u) : Did s i (complete u)

/-- A command under the error-stop does one of these, given what its success writes. -/
theorem did_of_command {s : State} {i : Instr} {e : Except Raise State} (other : i ≠ .errclr ∧ i ≠ .srst)
    (w : ∀ u, e = .ok u → Wrote s i u) : ∃ t, command s e = .next t ∧ Did s i t := by
  cases hs : s.err with
  | true => exact ⟨_, command_of_err e hs, .ignored i hs other⟩
  | false =>
    cases e with
    | ok u => exact ⟨_, command_ok u hs, .wrote i u hs (w u rfl)⟩
    | error r => exact ⟨_, command_error r hs, .raised i r hs other⟩

/-- Contents of a build are not empty when IBUF is not, and are within the limit. -/
theorem buildContent_ok {raw : Bool} {s : State} {content : List Byte} (h : buildContent raw s = .ok content)
    (h0 : s.ilen ≠ 0) :
    1 ≤ content.length ∧ content.length ≤ s.cfg.contentMax ∧
      (if raw then content = s.ibuf else hex2b s.ibuf = some content) := by
  cases raw with
  | true =>
    obtain ⟨rfl, hm⟩ := rawContent_ok (by simpa [buildContent] using h)
    exact ⟨by simp only [State.ilen] at h0; omega, hm, by simp⟩
  | false =>
    obtain ⟨hh, hl, hm⟩ := hexContent_ok (by simpa [buildContent] using h)
    exact ⟨by omega, hm, by simpa using hh⟩

theorem wrote_of_build {s u : State} {i : Instr} {a r : Bool}
    (hi : i = if a then (if r then .bldaR else .bldaH) else (if r then .bldrR else .bldrH))
    (h : build a r s = .ok u) : Wrote s i u := by
  rcases build_ok_cases h with ⟨h0, rfl⟩ | ⟨content, h0, hc, hl, rfl⟩
  · exact .emptyBuild i (by cases a <;> cases r <;> simp_all) h0
  · obtain ⟨h1, hm, hk⟩ := buildContent_ok hc h0
    refine .frameBuild i _ content ?_ h1 hm hl
    cases a <;> cases r <;> simp_all

/-- The inversion lemma of `exec`: every command answers a next state, and it is one of these. -/
theorem exec_did (i : Instr) (s : State) : ∃ t, exec i s = .next t ∧ Did s i t := by
  cases i with
  | errclr => exact ⟨_, rfl, .errclr⟩
  | srst => exact ⟨_, rfl, .srst⟩
  | nop => exact did_of_command (by simp) fun u h => by cases h; exact .nop
  | iclr => exact did_of_command (by simp) fun u h => by cases h; exact .iclr
  | ipush b =>
    refine did_of_command (by simp) fun u h => ?_
    split at h
    · cases h
    · cases h
      rw [ibufAppend_eq]
      exact .ipush b ‹_›
  | ih2b =>
    refine did_of_command (by simp) fun u h => ?_
    rcases hexOperand_cases s with ⟨-, he⟩ | ⟨-, -, he⟩ | ⟨c, hc, -, he⟩ <;> simp only [he] at h <;> cases h
    exact .ih2b c hc
  | crcclr => exact did_of_command (by simp) fun u h => by cases h; exact .crcclr
  | crcadd b => exact did_of_command (by simp) fun u h => by cases h; exact .crcadd b
  | crchex =>
    refine did_of_command (by simp) fun u h => ?_
    rcases hexOperand_cases s with ⟨-, he⟩ | ⟨-, -, he⟩ | ⟨c, hc, -, he⟩ <;> simp only [he] at h <;> cases h
    exact .crchex c hc
  | crcraw => exact did_of_command (by simp) fun u h => by cases h; exact .crcraw
  | bldrH => exact did_of_command (by simp) fun u h => wrote_of_build rfl h
  | bldaH => exact did_of_command (by simp) fun u h => wrote_of_build rfl h
  | bldrR => exact did_of_command (by simp) fun u h => wrote_of_build rfl h
  | bldaR => exact did_of_command (by simp) fun u h => wrote_of_build rfl h
  | lclr => exact did_of_command (by simp) fun u h => by cases h; exact .lclr
  | pxscan =>
    refine did_of_command (by simp) fun u h => ?_
    split at h
    · cases h
      exact .pxscan ‹_›
    · cases h
  | pxpack =>
    refine did_of_command (by simp) fun u h => ?_
    split at h
    · cases h
    · cases h
      exact .pxpack ‹_›
  | pxemit =>
    refine did_of_command (by simp) fun u h => ?_
    split at h
    · cases h
    · split at h
      · cases h
      · cases h
        rw [ibufAppend_eq]
        exact .pxemit ‹_› (by omega)

theorem did_of_exec {i : Instr} {s t : State} (h : exec i s = .next t) : Did s i t := by
  obtain ⟨u, hu, hd⟩ := exec_did i s
  rw [hu] at h
  cases h
  exact hd

/-- What an illegal word does: one fault entry, or nothing under the error-stop. -/
theorem illegalCommand_cases (s : State) :
    (s.err = true ∧ illegalCommand s = .next (complete s)) ∨
    (s.err = false ∧ illegalCommand s = .next (complete (raiseFault (.illcmd, s.cmd.toNat) s))) := by
  cases h : s.err with
  | true => exact .inl ⟨rfl, command_of_err _ h⟩
  | false => exact .inr ⟨rfl, command_error _ h⟩

/-- Everything a host write can do. -/
theorem hostWrite_cases (k : Nat) (v : Word) (s : State) :
    (k = 0 ∧ s.busy = true ∧ hostWrite k v s = .fault .cmdWriteWhileBusy) ∨
    (k = 0 ∧ s.busy = false ∧ hostWrite k v s = .next { s with cmd := v.setWidth 16, busy := true }) ∨
    (k = 11 ∧ hostWrite k v s = .next { s with wsel := v.setWidth 3 }) ∨
    (k = 12 ∧ hostWrite k v s = .next { s with wchunk := v }) ∨
    (k = 13 ∧ hostWrite k v s = .next { s with waddr := v }) ∨
    (k ≠ 0 ∧ k ≠ 11 ∧ k ≠ 12 ∧ k ≠ 13 ∧ hostWrite k v s = .next s) := by
  unfold hostWrite
  split
  · cases h : s.busy <;> simp
  · simp
  · simp
  · simp
  · simp_all

/-- Everything an access of the outside world can do. -/
theorem hostAct_cases (op : HostOp) (s : State) :
    (op = .reset ∧ hostAct op s = .next (resetInput s)) ∨
    (op.namesRegister s.cfg = false ∧ hostAct op s = .refused .noRegisterAtAddress) ∨
    (∃ port v k, op = .write port v ∧ portRegister s.cfg port = some k ∧ hostAct op s = hostWrite k v s) ∨
    ∃ port k, op = .read port ∧ portRegister s.cfg port = some k ∧ hostAct op s = .next (hostRead k s) := by
  cases op with
  | reset => exact .inl ⟨rfl, rfl⟩
  | write port v =>
    cases h : portRegister s.cfg port with
    | none => exact .inr (.inl ⟨by simp [HostOp.namesRegister, h], by simp [hostAct, h]⟩)
    | some k => exact .inr (.inr (.inl ⟨port, v, k, rfl, h, by simp [hostAct, h]⟩))
  | read port =>
    cases h : portRegister s.cfg port with
    | none => exact .inr (.inl ⟨by simp [HostOp.namesRegister, h], by simp [hostAct, h]⟩)
    | some k => exact .inr (.inr (.inr ⟨port, k, rfl, h, by simp [hostAct, h]⟩))

/-- Everything a step can do. -/
theorem step_cases (s : State) :
    (s.hostQueue = [] ∧ s.busy = false ∧ step s = .next s) ∨
    (s.busy = true ∧ CommandUndisturbed s ∧ step s = runLatched s) ∨
    ∃ ev rest, s.hostQueue = ev :: rest ∧ (s.busy = false ∨ ev.overlap = true) ∧
      step s = hostAct ev.op { s with hostQueue := rest } := advance_cases s

end Sys2Proof.Machine
end

