-- ==== Sys2Proof/Laws/PerInstr.lean ====
section
/-! SUPPORT. Facts about every command as syntax, one lemma per constructor of `Instr`. -/

namespace Sys2Proof.Laws

/-- The word of a command selects its own row of the opcode map and no other: "The rows are disjoint" (R76). -/
def OwnRow.Statement (i : Instr) : Prop :=
  (opcodeTable.filter fun r => r.selects (encode i)) = [opcodeRow i]

theorem OwnRow.nop : OwnRow.Statement .nop := by unfold OwnRow.Statement; decide
theorem OwnRow.errclr : OwnRow.Statement .errclr := by unfold OwnRow.Statement; decide
theorem OwnRow.srst : OwnRow.Statement .srst := by unfold OwnRow.Statement; decide
theorem OwnRow.iclr : OwnRow.Statement .iclr := by unfold OwnRow.Statement; decide
theorem OwnRow.ih2b : OwnRow.Statement .ih2b := by unfold OwnRow.Statement; decide
theorem OwnRow.crcclr : OwnRow.Statement .crcclr := by unfold OwnRow.Statement; decide
theorem OwnRow.crchex : OwnRow.Statement .crchex := by unfold OwnRow.Statement; decide
theorem OwnRow.crcraw : OwnRow.Statement .crcraw := by unfold OwnRow.Statement; decide
theorem OwnRow.bldrH : OwnRow.Statement .bldrH := by unfold OwnRow.Statement; decide
theorem OwnRow.bldaH : OwnRow.Statement .bldaH := by unfold OwnRow.Statement; decide
theorem OwnRow.bldrR : OwnRow.Statement .bldrR := by unfold OwnRow.Statement; decide
theorem OwnRow.bldaR : OwnRow.Statement .bldaR := by unfold OwnRow.Statement; decide
theorem OwnRow.lclr : OwnRow.Statement .lclr := by unfold OwnRow.Statement; decide
theorem OwnRow.pxscan : OwnRow.Statement .pxscan := by unfold OwnRow.Statement; decide
theorem OwnRow.pxpack : OwnRow.Statement .pxpack := by unfold OwnRow.Statement; decide
theorem OwnRow.pxemit : OwnRow.Statement .pxemit := by unfold OwnRow.Statement; decide
theorem OwnRow.ipush (imm8 : Byte) : OwnRow.Statement (.ipush imm8) := by
  unfold OwnRow.Statement; revert imm8; decide +kernel
theorem OwnRow.crcadd (imm8 : Byte) : OwnRow.Statement (.crcadd imm8) := by
  unfold OwnRow.Statement; revert imm8; decide +kernel

end Sys2Proof.Laws
end

