-- ==== Sys2Proof/Tests/Slice0.lean ====
section
/-! SUPPORT. The model's own tests: expected values are the spec's own vectors (95_test_vectors.md X, V, G, H) and
examples, named in each test; then a witness for the hypotheses of every statement that has some. -/

namespace Sys2Proof.Tests

open Sys2Proof.Machine

/-- The reset state with these octets in IBUF. -/
def loaded (octets : List Byte) : State := { State.reset with ibuf := octets }

/-- The reset state in the error state of V73: `E_ODDHEX`, detail 3. -/
def stopped : State := { State.reset with err := true, errcode := 0x03, errinfo := 3 }

/-- A configuration with the least limits V77 to V79 need. -/
def tight : Config := { Config.standard with contentMax := 1, omlMaxChunks := some 1 }

/-- One command run from a state, seen through `f`. -/
def after {α : Type} (i : Instr) (s : State) (f : State → α) : Option α := (nextOf (exec i s)).map f

/-- "4502" in ASCII (K1). -/
def text4502 : List Byte := [0x34, 0x35, 0x30, 0x32]

/-- V62: every cell red but cell 5, which is blue. -/
def redButOne : List Byte := (List.range 256).flatMap fun i => if i = 5 then [0, 0, 0xFF] else [0xFF, 0, 0]

/-! ### Well-formedness: each check refuses an ill-formed configuration (R9) -/

theorem smoke_standard : Config.standard.wellFormed = true := by decide
theorem smoke_contentMax_zero : ({ Config.standard with contentMax := 0 } : Config).wellFormed = false := by decide
theorem smoke_contentMax_over : ({ Config.standard with contentMax := 65534 } : Config).wellFormed = false := by decide
theorem smoke_ibufMax_under : ({ Config.standard with ibufMax := 2047 } : Config).wellFormed = false := by decide
theorem smoke_omlMax_zero : ({ Config.standard with omlMaxChunks := some 0 } : Config).wellFormed = false := by decide
theorem smoke_instr : (Instr.ipush 0xFF).wellFormed = true := by decide

/-! ### Decoding: words written out bit by bit from R74 to R76, op then arg -/

theorem test_decode_system : decode 0b0000000000000000 = .ok .nop ∧ decode 0b0000000100000000 = .ok .errclr ∧
    decode 0b0000001000000000 = .ok .srst := by decide
theorem test_decode_input : decode 0b0001000000000000 = .ok .iclr ∧ decode 0b0001000100110100 = .ok (.ipush 0x34) ∧
    decode 0b0001001000000000 = .ok .ih2b := by decide
theorem test_decode_crc : decode 0b0010000000000000 = .ok .crcclr ∧ decode 0b0010000101000101 = .ok (.crcadd 0x45) ∧
    decode 0b0010001000000000 = .ok .crchex ∧ decode 0b0010001100000000 = .ok .crcraw := by decide
theorem test_decode_build : decode 0b0011000000000000 = .ok .bldrH ∧ decode 0b0011000000000001 = .ok .bldaH ∧
    decode 0b0011000000000010 = .ok .bldrR ∧ decode 0b0011000000000011 = .ok .bldaR := by decide
theorem test_decode_list_palette : decode 0b0011000100000000 = .ok .lclr ∧ decode 0b0100000000000000 = .ok .pxscan ∧
    decode 0b0100000100000000 = .ok .pxpack ∧ decode 0b0100001000000000 = .ok .pxemit := by decide
/-- V70, V71, V72. -/
theorem test_decode_rejects : decode 0x0001 = .error (.argNotZero 0x01) ∧
    decode 0x3004 = .error (.modeBitsNotZero 0x04) ∧ decode 0x5000 = .error (.undefinedOp 0x50) ∧
    decode 0x1300 = .error (.undefinedOp 0x13) ∧ decode 0xFFFF = .error (.undefinedOp 0xFF) := by decide
theorem test_decodeTableWord : decodeTableWord 16 0x1134 = some (.ipush 0x34) ∧ decodeTableWord 16 0x3004 = none := by
  decide
/-- The mnemonics of the table, letter for letter and in its order (R76). -/
theorem test_table_mnemonics : opcodeTable.map OpcodeRow.mnemonic =
    ["NOP", "ERRCLR", "SRST", "ICLR", "IPUSH", "IH2B", "CRCCLR", "CRCADD", "CRCHEX", "CRCRAW"] ++
    ["BLDR.H", "BLDA.H", "BLDR.R", "BLDA.R", "LCLR", "PXSCAN", "PXPACK", "PXEMIT"] := by decide

/-! ### Primitives -/

/-- V1, V2. -/
theorem test_hexval : [0x30, 0x39, 0x61, 0x66, 0x41, 0x46].map hexval = [some 0, some 9, some 10, some 15, some 10, some 15] ∧
    [0x67, 0x47, 0x20, 0x78, 0x00].map hexval = [none, none, none, none, none] := by decide
/-- V8, V9. -/
theorem test_b2hex_le16 : b2hex [0x00, 0x0A, 0xFF] = [0x30, 0x30, 0x30, 0x61, 0x66, 0x66] ∧
    le16 0x0296 = [0x96, 0x02] := by decide
/-- V50 and X2. -/
theorem test_bitw : [1, 2, 3, 4, 5, 8, 9, 16, 17, 32, 33, 64, 65, 128, 129, 255, 256].map bitw =
    [1, 1, 2, 2, 3, 3, 4, 4, 5, 5, 6, 6, 7, 7, 8, 8, 8] := by decide

/-! ### Commands, at most two tests each -/

theorem test_nop : after .nop (loaded [1]) id = some (loaded [1]) := by decide
/-- V75. -/
theorem test_errclr : after .errclr stopped id = some State.reset := by decide
/-- V76. -/
theorem test_srst : after .srst { stopped with cmd := 0x0200, ibuf := [1], oml := [[1]], wsel := 2 } id =
    some { State.reset with cmd := 0x0200 } := by decide
/-- R90's example. -/
theorem test_iclr : after .iclr (loaded text4502) State.ilen = some 0 := by decide
/-- R91's example. -/
theorem test_ipush : after (.ipush 0x34) State.reset State.ibuf = some [0x34] := by decide
/-- V16, on a buffer whose limit is reached. -/
theorem test_ipush_full :
    after (.ipush 1) { loaded [7, 7] with cfg := { Config.standard with ibufMax := 2 } }
      (fun t => (t.ibuf, t.err, t.errcode, t.errinfo)) = some ([7, 7], true, 0x02, 2) := by decide
/-- V10. -/
theorem test_ih2b : after .ih2b (loaded [0x34, 0x42, 0x30, 0x32]) State.ibuf = some [0x4B, 0x02] := by decide
/-- V13. -/
theorem test_ih2b_bad : after .ih2b (loaded [0x34, 0x35, 0x67, 0x32]) (fun t => (t.ilen, t.errcode, t.errinfo)) =
    some (4, 0x04, 2) := by decide
theorem test_crcclr : after .crcclr { State.reset with acc := 0x1234 } State.acc = some 0 := by decide
/-- R113: wrap at 65536. -/
theorem test_crcadd : after (.crcadd 0xFF) { State.reset with acc := 0xFF01 } State.acc = some 0 := by decide
/-- V26, from an accumulator that is not zero. -/
theorem test_crchex : after .crchex { loaded [0x64, 0x65, 0x61, 0x64, 0x42, 0x45, 0x45, 0x46] with acc := 5 } State.acc =
    some 0x0338 := by decide
/-- V14: odd length is reported first. -/
theorem test_crchex_odd : after .crchex (loaded [0x34, 0x67, 0x30]) (fun t => (t.errcode, t.errinfo)) = some (0x03, 3) := by
  decide
/-- 2.2: "Hi" gives 0x00B1. -/
theorem test_crcraw : after .crcraw (loaded [0x48, 0x69]) State.acc = some 0x00B1 := by decide
/-- X1, V31. -/
theorem test_bldrH : after .bldrH (loaded text4502) (fun t => (t.oml, t.len, t.acc, t.ilen)) =
    some ([[0x01, 0x04, 0x00, 0x45, 0x02, 0x4B, 0x00, 0x02]], 4, 0x4B, 4) := by decide +kernel
/-- V78: the length limit is reported before the bad digit. -/
theorem test_bldrH_toolong : after .bldrH { loaded [0x34, 0x35, 0x67, 0x32] with cfg := tight }
    (fun t => (t.errcode, t.errinfo)) = some (0x05, 2) := by decide
/-- V49. -/
theorem test_bldaH : after .bldaH { loaded [0x37, 0x34, 0x33, 0x32] with oml := [[0x01]] } (fun t => (t.oml, t.acc)) =
    some ([[0x01], [0x01, 0x04, 0x00, 0x74, 0x32, 0xAA, 0x00, 0x02]], 0xAA) := by decide +kernel
/-- V49 with `OML_MAX_CHUNKS = 1`. -/
theorem test_bldaH_full : after .bldaH { loaded [0x34, 0x35] with oml := [[0x01]], cfg := tight }
    (fun t => (t.oml, t.errcode, t.errinfo)) = some ([[0x01]], 0x06, 2) := by decide +kernel
/-- V38. -/
theorem test_bldrR : after .bldrR { loaded [0x48, 0x69] with oml := [[1]] } State.oml =
    some [[0x01, 0x04, 0x00, 0x48, 0x69, 0xB5, 0x00, 0x02]] := by decide +kernel
/-- V42: the second chunk is SUFFIX alone. -/
theorem test_bldrR_two_chunks : after .bldrR (loaded (List.replicate 661 0xAB))
    (fun t => (t.acc, t.oml.map List.length, t.oml.getLast?)) = some (0xBA20, [666, 1], some [0x02]) := by decide +kernel
/-- R138's example. -/
theorem test_bldaR : after .bldaR (loaded [0x45, 0x02]) State.oml =
    some [[0x01, 0x04, 0x00, 0x45, 0x02, 0x4B, 0x00, 0x02]] := by decide +kernel
theorem test_lclr : after .lclr { loaded [1] with oml := [[1], [2], [3]] } (fun t => (t.ocnt, t.ilen)) = some (0, 1) := by
  decide
/-- V62 after the scan. -/
theorem test_pxscan : after .pxscan (loaded redButOne) (fun t => (t.pal, t.idx.take 7)) =
    some ([⟨0xFF, 0, 0⟩, ⟨0, 0, 0xFF⟩], [0, 0, 0, 0, 0, 1, 0]) := by decide +kernel
/-- 2.5: `E_PIXLEN` with 767 octets. -/
theorem test_pxscan_short : after .pxscan (loaded (List.replicate 767 1)) (fun t => (t.errcode, t.errinfo)) =
    some (0x07, 767) := by decide +kernel
/-- R173's example: indices 1, 2, 3, 0 at two bits. -/
theorem test_pxpack : after .pxpack
    { State.reset with pal := [⟨0, 0, 0⟩, ⟨1, 0, 0⟩, ⟨2, 0, 0⟩, ⟨3, 0, 0⟩], idx := [1, 2, 3, 0] }
    (fun t => (t.bitw, t.pklen, t.pkbuf.take 1)) = some (2, 64, [0x39]) := by decide +kernel
theorem test_pxpack_no_scan : after .pxpack State.reset (fun t => (t.errcode, t.errinfo)) = some (0x08, 0) := by decide
/-- The block of R178's example: count, two colours, packed bytes. -/
theorem test_pxemit : after .pxemit
    { State.reset with pal := [⟨0xFF, 0, 0⟩, ⟨0, 0, 0xFF⟩], bitw := 1, pkbuf := 0x20 :: List.replicate 31 0 }
    (fun t => (t.ilen, t.ibuf.take 9)) = some (39, [0x02, 0xFF, 0, 0, 0, 0, 0xFF, 0x20, 0]) := by decide +kernel
/-- 2.5: a scan alone is not enough. -/
theorem test_pxemit_no_pack : after .pxemit { State.reset with pal := [⟨0, 0, 0⟩] } (fun t => t.errcode) = some 0x09 := by
  decide

/-! ### Steps, the window, the host's own encodings -/

/-- V71. -/
theorem test_step_illegal : (nextOf (step (State.reset.withFetchWord 16 0x3004))).map (fun t => (t.err, t.errcode, t.errinfo)) =
    some (true, 0x01, 0x3004) := by decide
/-- V73. -/
theorem test_step_illegal_stopped : (nextOf (step (stopped.withFetchWord 16 0x5000))).map
    (fun t => (t.cmd, t.errcode, t.errinfo)) = some (0x5000, 0x03, 3) := by decide
/-- G1, last line: `WDATA` at offset 5 and beyond the chunk. -/
theorem test_window : windowData { State.reset with
      oml := [[0x01, 0x04, 0x00, 0x45, 0x02, 0x4B, 0x00, 0x02]], wsel := 1, waddr := 5 } = 0x8062344B ∧
    windowData { State.reset with
      oml := [[0x01, 0x04, 0x00, 0x45, 0x02, 0x4B, 0x00, 0x02]], wsel := 1, waddr := 8 } = 0 := by decide
/-- H1, H2, H3. -/
theorem test_host_values : le16 (clampTo 0 999 1200) = [0xE7, 0x03] ∧ clampTo 0 999 (-5) = 0 ∧
    tempByte (-1) = .ok 0xFF ∧ tempByte 129 = .error .invalidRange ∧
    brightnessByte 5 (some (0, 10)) = .ok 0x32 ∧ brightnessByte 150 none = .error .invalidBrightnessRange := by decide
/-- R8: the derived constants have the listed values. -/
theorem test_constants : chunkHex = 1332 ∧ gridCells = 256 := by decide
/-- Host parameters with short stand-in values, chosen by the test. -/
def someHost : HostParams where
  opTime := []
  opLight := []
  lightPower := fun _ => []
  lightSuffix := []
  opEffect := []
  opScore := []
  opWeather := []
  opBright := []
  opImagePrefix := [0x44]
  imgLenBytes := 2
  imgLenOf := fun palsize pklen => 3 * palsize + pklen
  opAnim := [0x49]
  pieceIndexBase := 0
  textEncoding := fun _ => []
/-- R211: prefix, length low byte first, three reserved bytes; a length that does not fit is left open (log 14). -/
theorem test_image_header : imageHeader someHost 256 256 = .ok [0x44, 0x00, 0x04, 0x00, 0x00, 0x00] ∧
    imageHeader { someHost with imgLenBytes := 1 } 256 256 = .error .leftOpen := by decide
/-- R215, R216: two records of 42 and 60 bytes give 102 with the header; every piece repeats it before its index, and
the default splits the header too (C3). -/
theorem test_anim_pieces :
    animPieces someHost [List.replicate 42 1, List.replicate 60 2] =
      .ok [[0x49, 0x66, 0x00, 0x00] ++ ([0x49, 0x66, 0x00] ++ List.replicate 42 1 ++ List.replicate 60 2)] := by
  decide
/-- R216: pieces of 200 bytes, the last one shorter: 3 + 200 bytes are split in two. -/
theorem test_anim_split : (animPieces someHost [List.replicate 200 7]).toOption.map (List.map List.length) =
    some [204, 7] := by decide +kernel
/-- H5: body 39 bytes, record 42 bytes, from a block of 36. -/
theorem test_host_record : (do let body ← frameBody 10 (List.replicate 36 0); frameRecord body) =
    .ok ([0xAA, 0x27, 0x00] ++ [0x64, 0x00, 0x00] ++ List.replicate 36 0) := by decide
/-- R81, G1: the words of `displayCloudPackage()`. -/
theorem test_cloud_words : displayCloudPackage.map encode = [0x1000, 0x1134, 0x1135, 0x1130, 0x1132, 0x3000] := by decide

/-! ### Witnesses for the hypotheses of the statements -/

/-- A busy state with `IPUSH '4'` latched. -/
def running : State := { State.reset with cmd := 0x1134, busy := true }

/-- A list of one pending access. -/
def pending (ov : Bool) (op : HostOp) : List HostEvent := [⟨ov, op⟩]

theorem no_access_pending (s : State) (h : s.hostQueue = []) : CommandUndisturbed s := by
  simp [CommandUndisturbed, h]

theorem witness_DecodeOfEncode : (Instr.crcadd 0x00).wellFormed = true := by decide
theorem witness_EncodeOfDecode : decode 0x3003 = .ok .bldaR := by decide
theorem witness_MapRows : opcodeRow .bldaR ∈ opcodeTable ∧ (opcodeRow .bldaR).selects 0x3003 = true := by decide
theorem witness_StepRuns : running.busy = true ∧ CommandUndisturbed running ∧ decode running.cmd = .ok (.ipush 0x34) :=
  ⟨rfl, no_access_pending _ rfl, by decide⟩
theorem witness_IllegalWord : ({ running with cmd := 0x3004 } : State).busy = true ∧ running.err = false ∧
    CommandUndisturbed { running with cmd := 0x3004 } ∧
    ∀ r ∈ opcodeTable, r.selects 0x3004 = false := ⟨rfl, rfl, no_access_pending _ rfl, by decide⟩
theorem witness_ErrorStopWords : stopped.err = true ∧ stopped.busy = false ∧
    portRegister stopped.cfg (.number 0) = some 0 ∧
    ({ stopped with hostQueue := pending false (.write (.number 0) 0x5000) } : State).hostQueue =
      ⟨false, .write (.number 0) 0x5000⟩ :: [] ∧
    (∀ ev ∈ ([] : List HostEvent).head?, ev.overlap = false) ∧ (0x5000 : Word).setWidth 16 ≠ (0x0100 : Half) ∧
    (0x5000 : Word).setWidth 16 ≠ (0x0200 : Half) := ⟨rfl, rfl, rfl, rfl, by simp, by decide, by decide⟩
theorem witness_ErrorStopCommands : stopped.err = true ∧ Instr.nop ≠ .errclr ∧ Instr.nop ≠ .srst := by decide
theorem witness_CmdWrite : portRegister Config.standard (.number 0) = some 0 ∧ portRegister Config.standard (.address 0) = some 0 ∧
    ({ State.reset with hostQueue := pending false (.write (.number 0) 0x1000) } : State).busy = false ∧
    ({ running with hostQueue := pending true (.write (.number 0) 0x1000) } : State).busy = true := by decide
/-- A write of `WADDR` is such a step. -/
theorem witness_IdleState : ∃ t, step { State.reset with hostQueue := pending false (.write (.number 13) 5) } = .next t ∧
    t.tefe ≠ State.tefe { State.reset with hostQueue := pending false (.write (.number 13) 5) } :=
  ⟨_, rfl, by decide⟩
theorem witness_UndefinedAccessFaults :
    step { running with hostQueue := pending true (.write (.address 0) 0) } = .fault .cmdWriteWhileBusy := rfl
theorem witness_UndefinedAccessRefused :
    step { running with hostQueue := pending true (.read (.address 3)) } = .refused .noRegisterAtAddress := rfl
theorem witness_WaitingHost :
    HostWaits { State.reset with hostQueue := commandEvents displayCloudPackage ++ messageListReads [8] } := by
  unfold HostWaits
  decide
theorem witness_ParametersNeverChange : ∃ t, step running = .next t := ⟨_, rfl⟩
theorem witness_ResetAbandons : ({ running with hostQueue := pending true .reset } : State).busy = true ∧
    ({ running with hostQueue := pending true .reset } : State).hostQueue = ⟨true, .reset⟩ :: [] := ⟨rfl, rfl⟩
/-- `PXPACK` after reset is such a step. -/
theorem witness_FaultEntry : ∃ t, step { running with cmd := 0x4100 } = .next t ∧ t.err = true ∧ running.err = false :=
  ⟨_, rfl, by decide, rfl⟩
theorem witness_FaultFree : ∃ t, exec .crcraw running = .next t ∧ running.err = false := ⟨_, rfl, rfl⟩
theorem witness_ErrorStateLeft : ∃ t, step { stopped with busy := true, cmd := 0x0100 } = .next t ∧ t.err = false :=
  ⟨_, rfl, rfl⟩
theorem witness_ErrorStateKept : ∃ t, step { stopped with busy := true } = .next t ∧ t.err = true := ⟨_, rfl, rfl⟩
/-- `WDATA` while nothing runs, `STATUS` while a command runs. -/
theorem witness_Reads : portRegister Config.standard (.address 60) = some 15 ∧
    ({ State.reset with hostQueue := pending false (.read (.address 60)) } : State).busy = false ∧
    portRegister Config.standard (.number 1) = some 1 ∧
    ({ running with hostQueue := pending true (.read (.number 1)) } : State).busy = true := by decide
theorem witness_Addresses : portRegister Config.standard (.address 4) = some 1 ∧ ∀ k < 2, 3 ≠ 0 + 4 * k := by decide

theorem witness_Inv : Inv (loaded [7]) where
  parameters := by decide
  input_fits := by decide
  list_fits := by decide
  chunk_sizes := by simp [loaded, State.reset]
  list_frames := ⟨[], by simp, rfl⟩
  scan_valid := .inl ⟨rfl, rfl⟩
  pack_valid := .inl ⟨rfl, rfl⟩
  error_code := by decide
  error_info := fun _ => rfl

/-- One octet in IBUF and one chunk of seven bytes in the list, seen through each selector and chunk number. -/
def windowed (sel : BitVec 3) (chunk offset : Word) : State :=
  { loaded [7] with oml := chunks (frame [0x45]), wsel := sel, wchunk := chunk, waddr := offset }

theorem witness_WindowInv (sel : BitVec 3) (chunk offset : Word) : Inv (windowed sel chunk offset) where
  parameters := smoke_standard
  input_fits := witness_Inv.input_fits
  list_fits := rfl
  chunk_sizes := (by decide : ∀ ch ∈ chunks (frame [0x45]), 1 ≤ ch.length ∧ ch.length ≤ 666)
  list_frames := ⟨[[0x45]], by decide, (List.append_nil _).symm⟩
  scan_valid := .inl ⟨rfl, rfl⟩
  pack_valid := .inl ⟨rfl, rfl⟩
  error_code := by simp [windowed, loaded, State.reset]
  error_info := fun _ => rfl

/-- The last offset of an object and the first beyond it, the last chunk and the first beyond it, the first selector
without an object. -/
theorem witness_Window : (windowed 0 0 0).waddr.toNat < windowLength (windowed 0 0 0) ∧
    windowLength (windowed 0 0 1) ≤ (windowed 0 0 1).waddr.toNat ∧
    (windowed 1 0 6).wchunk.toNat < (windowed 1 0 6).ocnt ∧ (windowed 1 0 6).waddr.toNat < windowLength (windowed 1 0 6) ∧
    (windowed 1 1 0).ocnt ≤ (windowed 1 1 0).wchunk.toNat ∧ 5 ≤ (windowed 5 0 0).wsel.toNat ∧
    windowLength (windowed 1 0 6) < 2 ^ 32 := by decide
/-- The premises of each clause about registers: a state of the invariants, both values of `BUSY`. -/
theorem witness_RegisterMap : Inv (loaded [7]) ∧ (loaded [7]).ibuf.length < 2 ^ 32 ∧ (loaded [7]).oml.length < 2 ^ 32 ∧
    State.reset.busy = false ∧ running.busy = true := ⟨witness_Inv, by decide, by decide, rfl, rfl⟩
theorem witness_Errclr : Inv (loaded [7]) ∧ (loaded [7]).err = false := ⟨witness_Inv, rfl⟩
theorem witness_NoError : (loaded [1]).err = false := rfl
theorem witness_Ipush : (loaded [1]).ilen ≠ (loaded [1]).cfg.ibufMax ∧
    ({ loaded [7, 7] with cfg := { Config.standard with ibufMax := 2 } } : State).ilen = 2 := by decide
theorem witness_HexReaders : (loaded [0x34]).ilen % 2 = 1 ∧
    FirstNonHex (loaded [0x34, 0x47]).ibuf 1 ∧ (∀ x ∈ (loaded text4502).ibuf, isHexDigit x = true) := by
  refine ⟨by decide, ⟨⟨0x47, rfl, by decide⟩, ?_⟩, by decide⟩
  intro j hj d hd
  have : j = 0 := by omega
  subst this
  cases hd
  decide
/-- The greatest content that a limit of two admits, into a list with room for exactly its chunk. -/
theorem witness_HexBuild :
    ∃ s : State, s = { loaded text4502 with
        cfg := { Config.standard with contentMax := 2, omlMaxChunks := some 1 } } ∧
      s.err = false ∧ s.ilen ≠ 0 ∧ hex2b s.ibuf = some [0x45, 0x02] ∧ 2 ≤ s.cfg.contentMax ∧
      listHolds s.cfg ((2 + 671) / 666) = true ∧ listHolds s.cfg (s.ocnt + (2 + 671) / 666) = true :=
  ⟨_, rfl, by decide⟩
theorem witness_RawBuild :
    ∃ s : State, s = { loaded [1] with cfg := tight } ∧ s.err = false ∧ s.ilen ≠ 0 ∧ s.ilen ≤ s.cfg.contentMax ∧
      listHolds s.cfg ((s.ilen + 671) / 666) = true ∧ listHolds s.cfg (s.ocnt + (s.ilen + 671) / 666) = true :=
  ⟨_, rfl, by decide⟩
theorem witness_EmptyBuild : State.reset.ilen = 0 := rfl
/-- The clauses of the fault priority, at the limits of `tight`: lengths 3, 4 and 2, and a full list. -/
theorem witness_BuildFaults : (loaded [0x34, 0x35, 0x30]).ilen % 2 = 1 ∧ tight.contentMax < (loaded text4502).ilen / 2 ∧
    (loaded [0x34, 0x47]).ilen / 2 ≤ tight.contentMax ∧ hex2b [0x34, 0x35] = some [0x45] ∧
    listHolds tight (1 + (1 + 671) / 666) = false ∧ tight.contentMax < (loaded [1, 2]).ilen := by decide
theorem witness_Frame : 1 ≤ ([0x01] : List Byte).length ∧ (List.replicate 65533 (0 : Byte)).length ≤ 65533 :=
  ⟨by decide, List.length_replicate.le⟩
theorem witness_BuiltList : (∃ t, exec .bldrH (loaded text4502) = .next t ∧ t.err = false) ∧
    ∃ t, exec .bldrR (loaded [1]) = .next t ∧ t.err = false :=
  ⟨⟨_, rfl, by decide +kernel⟩, ⟨_, rfl, by decide +kernel⟩⟩
theorem witness_LclrThenAppend : ∃ t u, exec .lclr (loaded text4502) = .next t ∧ exec .bldaH t = .next u ∧ u.err = false :=
  ⟨_, _, rfl, rfl, by decide +kernel⟩
theorem witness_Chunks : ([0x02] : List Byte) ≠ [] := by decide
theorem witness_HexText : hex2b [0x34, 0x42] = some [0x4B] := by decide
theorem witness_ConvertThenRaw : ∃ t, exec .ih2b (loaded text4502) = .next t ∧ t.err = false := ⟨_, rfl, by decide⟩
theorem witness_Checksum : ([1, 2] : List Byte).Perm [2, 1] ∧ (List.replicate 257 (0xFF : Byte)).length ≤ 257 :=
  ⟨List.Perm.swap 2 1 [], List.length_replicate.le⟩
theorem witness_Pxscan : (loaded redButOne).ilen = 768 ∧ (loaded redButOne).err = false ∧
    (loaded (List.replicate 769 0)).ilen ≠ 768 := by decide +kernel
theorem witness_Grid : (loaded (gridOctets fun x y => ⟨BitVec.ofNat 8 x, BitVec.ofNat 8 y, 0⟩)).err = false ∧
    gridOctets (fun x y => ⟨BitVec.ofNat 8 x, BitVec.ofNat 8 y, 0⟩) =
      (List.range 256).flatMap fun i => [BitVec.ofNat 8 (i % 16), BitVec.ofNat 8 (i / 16), 0] := by decide +kernel
/-- Both ends of the range of `PALSIZE`, and none. -/
theorem witness_Pxpack :
    ({ State.reset with pal := [⟨0, 0, 0⟩], idx := List.replicate 256 0 } : State).palsize = 1 ∧
    ({ State.reset with pal := List.replicate 256 ⟨0, 0, 0⟩, idx := List.replicate 256 0 } : State).palsize = 256 ∧
    (List.replicate 256 (0 : Byte)).length = 256 ∧ State.reset.palsize = 0 := by decide +kernel
theorem witness_PackedInteger : (List.replicate 256 (0xFF : Byte)).length = 256 ∧
    ∀ b ∈ List.replicate 256 (0xFF : Byte), b.toNat < 2 ^ 8 := by decide +kernel
/-- A pack that just fits, one that does not, and none. -/
theorem witness_Pxemit :
    ∃ s : State, s = { State.reset with pal := [⟨0, 0, 0⟩], bitw := 1, pkbuf := List.replicate 32 0 } ∧
      s.err = false ∧ s.pklen ≠ 0 ∧
      s.ilen + (1 + 3 * s.palsize + s.pklen) ≤ ({ s.cfg with ibufMax := 36 } : Config).ibufMax ∧
      ({ s.cfg with ibufMax := 35 } : Config).ibufMax < s.ilen + (1 + 3 * s.palsize + s.pklen) ∧
      State.reset.pklen = 0 :=
  ⟨_, rfl, by decide⟩
theorem witness_Pixels : (loaded redButOne).err = false ∧ (loaded redButOne).ilen = 768 ∧
    (loaded redButOne).cfg.packMsbFirst = false ∧ (loaded redButOne).cfg.wellFormed = true ∧
    ∃ t1 t2 t3 t4, exec .pxscan (loaded redButOne) = .next t1 ∧ exec .pxpack t1 = .next t2 ∧
      exec .iclr t2 = .next t3 ∧ exec .pxemit t3 = .next t4 :=
  ⟨rfl, by decide +kernel, rfl, by decide, _, _, _, _, rfl, rfl, rfl, rfl⟩
theorem witness_AppendingFrame : (∃ t, exec (.ipush 1) State.reset = .next t) ∧ State.reset.byteAt .pal 0 = none :=
  ⟨⟨_, rfl⟩, rfl⟩
theorem witness_Writers : ∃ t, exec (.crcadd 1) State.reset = .next t ∧ t.acc ≠ State.reset.acc := ⟨_, rfl, by decide⟩
theorem witness_StepInvariants : ∃ t, Inv (loaded [7]) ∧ step (loaded [7]) = .next t := ⟨_, witness_Inv, rfl⟩
theorem witness_SerialHex : ∀ x ∈ text4502, isHexDigit x = true := by decide
theorem witness_SerialPacker : (List.replicate 256 (1 : Byte)).length = 256 ∧ 1 ≤ 1 ∧ 8 ≤ 8 := by decide +kernel
theorem witness_Temperature : tempByte (-127) = .ok 0x81 ∧ tempByte 128 = .ok 0x80 ∧
    tempByte (-128) = .error .invalidRange := by decide

end Sys2Proof.Tests
end

section
/-! PROOFS. Hex text and bytes (spec 00 R16 to R18): what a hex digit's value and its character say of each other,
`hex2b` and `b2hex` read pair by pair, and the two conversions as inverses up to letter case. -/

namespace Sys2Proof.Machine

@[simp] theorem hexval_hexchar : ∀ {n : Nat}, n < 16 → hexval (hexchar n) = some n := by decide

/-- The three ranges of hex digits (R16), each with the value it gives. -/
theorem hexval_eq_some {c : Byte} {h : Nat} (hv : hexval c = some h) :
    (0x30 ≤ c.toNat ∧ c.toNat ≤ 0x39 ∧ c.toNat = 0x30 + h) ∨
    (0x41 ≤ c.toNat ∧ c.toNat ≤ 0x46 ∧ c.toNat = 0x41 + (h - 10) ∧ 10 ≤ h) ∨
    (0x61 ≤ c.toNat ∧ c.toNat ≤ 0x66 ∧ c.toNat = 0x61 + (h - 10) ∧ 10 ≤ h) := by
  unfold hexval at hv
  split_ifs at hv <;> injection hv <;> omega

theorem hexval_lt {c : Byte} {h : Nat} (hv : hexval c = some h) : h < 16 := by
  rcases hexval_eq_some hv with hd | hd | hd <;> omega

theorem hexchar_toNat {n : Nat} (hn : n < 16) : (hexchar n).toNat = if n < 10 then 0x30 + n else 0x61 + (n - 10) := by
  unfold hexchar
  split_ifs <;> simp <;> omega

/-- The character of a digit's value is the digit itself, a capital lowered. -/
theorem hexchar_of_hexval {c : Byte} {h : Nat} (hv : hexval c = some h) :
    hexchar h = if 0x41 ≤ c.toNat ∧ c.toNat ≤ 0x46 then c + 0x20 else c := by
  apply BitVec.eq_of_toNat_eq
  rw [hexchar_toNat (hexval_lt hv)]
  rcases hexval_eq_some hv with hd | hd | hd
  · rw [if_pos (by omega), if_neg (by omega)]
    omega
  · rw [if_neg (by omega), if_pos (by omega), BitVec.toNat_add, show (0x20 : Byte).toNat = 0x20 from rfl]
    omega
  · rw [if_neg (by omega), if_neg (by omega)]
    omega

@[simp] theorem b2hex_nil : b2hex [] = [] := rfl

@[simp] theorem b2hex_cons (b : Byte) (bs : List Byte) :
    b2hex (b :: bs) = hexchar (b.toNat / 16) :: hexchar (b.toNat % 16) :: b2hex bs := rfl

@[simp] theorem b2hex_length (bs : List Byte) : (b2hex bs).length = 2 * bs.length := by
  induction bs with
  | nil => rfl
  | cons b bs ih => rw [b2hex_cons, List.length_cons, List.length_cons, ih, List.length_cons]; omega

/-- The two characters of the `i`-th byte, high nibble first. -/
theorem b2hex_getElem? {bs : List Byte} {i : Nat} {b : Byte} (hb : bs[i]? = some b) :
    (b2hex bs)[2 * i]? = some (hexchar (b.toNat / 16)) ∧
    (b2hex bs)[2 * i + 1]? = some (hexchar (b.toNat % 16)) := by
  induction bs generalizing i with
  | nil => simp at hb
  | cons a bs ih =>
    cases i with
    | zero => simp_all
    | succ i => simpa [Nat.mul_succ] using ih (by simpa using hb)

/-- R17, a pair of characters at a time. -/
theorem hex2b_pair_eq_some {hi lo : Byte} {rest content : List Byte} :
    hex2b (hi :: lo :: rest) = some content ↔
      ∃ h l bs, hexval hi = some h ∧ hexval lo = some l ∧ hex2b rest = some bs ∧
        BitVec.ofNat 8 (16 * h + l) :: bs = content := by
  rw [hex2b]
  split
  next h l bs hh hl hbs => simp [hh, hl, hbs]
  next hnone =>
    refine iff_of_false (by simp) ?_
    rintro ⟨h, l, bs, hh, hl, hbs, -⟩
    exact hnone h l bs hh hl hbs

/-- A byte is put together from its nibbles. -/
theorem byte_of_nibbles (b : Byte) : BitVec.ofNat 8 (16 * (b.toNat / 16) + b.toNat % 16) = b := by
  rw [Nat.div_add_mod, BitVec.ofNat_toNat, BitVec.setWidth_eq]

/-- Two nibbles are read back from the byte they make. -/
theorem nibbles_of_byte {h l : Nat} (hh : h < 16) (hl : l < 16) :
    (BitVec.ofNat 8 (16 * h + l)).toNat / 16 = h ∧ (BitVec.ofNat 8 (16 * h + l)).toNat % 16 = l := by
  rw [BitVec.toNat_ofNat]
  omega

/-- R18: reading the hex text of bytes gives the bytes. -/
@[simp] theorem hex2b_b2hex (bs : List Byte) : hex2b (b2hex bs) = some bs := by
  induction bs with
  | nil => rfl
  | cons b bs ih =>
    have hb := b.isLt
    exact hex2b_pair_eq_some.mpr ⟨_, _, _, hexval_hexchar (by omega), hexval_hexchar (by omega), ih,
      by rw [byte_of_nibbles]⟩

/-- R18: writing back the bytes of a hex text gives the text with its capitals lowered. -/
theorem b2hex_of_hex2b : ∀ {text bs : List Byte}, hex2b text = some bs →
    b2hex bs = text.map fun c => if 0x41 ≤ c.toNat ∧ c.toNat ≤ 0x46 then c + 0x20 else c
  | [], bs, h => by
    obtain rfl : [] = bs := Option.some.inj h
    rfl
  | [_], bs, h => nomatch h
  | hi :: lo :: rest, bs, h => by
    obtain ⟨x, y, tail, hx, hy, htail, rfl⟩ := hex2b_pair_eq_some.mp h
    obtain ⟨hhigh, hlow⟩ := nibbles_of_byte (hexval_lt hx) (hexval_lt hy)
    rw [b2hex_cons, hhigh, hlow, hexchar_of_hexval hx, hexchar_of_hexval hy, b2hex_of_hex2b htail,
      List.map_cons, List.map_cons]

/-- Settles O41, from the digits' two tables and the reading of both conversions pair by pair. -/
theorem hexTextInvertsBytes : Obligations.HexTextInvertsBytes :=
  ⟨by decide, fun bs => ⟨b2hex_length bs, hex2b_b2hex bs, fun _ _ => b2hex_getElem?⟩, fun _ _ => b2hex_of_hex2b⟩

end Sys2Proof.Machine
end

section
/-! PROOFS. The register map (spec 10 R24, R37): the numbers no register has, and what the map reads after reset. -/

namespace Sys2Proof.Machine

/-- R24: register numbers 16 and above do not exist. -/
theorem readReg_of_sixteen_le (s : State) {k : Nat} (hk : 16 ≤ k) : readReg s k = 0 := by
  obtain ⟨n, rfl⟩ := Nat.exists_eq_add_of_le' hk
  rfl

/-- The sixteen registers of R24 are evaluated; the window's two read zero because the default selection, `IBUF`, is
empty. -/
@[simp] theorem readReg_reset (k : Nat) : readReg State.reset k = 0 := by
  have hmap : ∀ k < 16, readReg State.reset k = 0 := by decide
  rcases Nat.lt_or_ge k 16 with hk | hk
  · exact hmap k hk
  · exact readReg_of_sixteen_le State.reset hk

/-- Settles O15: the registers by the map, the flags and buffers by the reset values of R37. -/
theorem resetLeavesEverythingZero : Obligations.ResetLeavesEverythingZero :=
  ⟨readReg_reset, rfl, rfl, rfl, rfl, rfl, rfl, rfl⟩

end Sys2Proof.Machine
end

section
/-! PROOFS. Words and rows (spec 30_encoding.md R74 to R78): a word as its two fields, what the decoder accepts, and
the engine on a word that no row of the map selects. -/

namespace Sys2Proof

/-- R74: a word is its operation byte above its argument byte. -/
theorem commandWord_opOf_argOf (w : Half) : commandWord (opOf w) (argOf w) = w :=
  (BitVec.extractLsb'_append_extractLsb'_eq_extractLsb' (by rfl)).trans BitVec.extractLsb'_eq_self

theorem commandWord_argOf {w : Half} (op : Byte) (hop : (opOf w).toNat = op.toNat) :
    commandWord op (argOf w) = w := by
  rw [← BitVec.eq_of_toNat_eq hop, commandWord_opOf_argOf]

/-- R75 (b): `arg` is the six bits above the mode bits, then `R`, then `A`. -/
theorem argOf_eq_modeBits (w : Half) :
    argOf w = w.extractLsb' 2 6 ++ BitVec.ofBool (modeRaw w) ++ BitVec.ofBool (modeAppend w) := by
  refine BitVec.eq_of_getLsbD_eq fun i hi => ?_
  simp only [argOf, modeRaw, modeAppend, BitVec.getLsbD_append]
  match i with
  | 0 => simp
  | 1 => simp
  | j + 2 => simp [hi, show j < 6 by omega, Nat.add_comm]

theorem noOperand_eq_ok {w : Half} {i j : Instr} : noOperand w i = .ok j ↔ argOf w = 0 ∧ i = j := by
  by_cases harg : argOf w = 0 <;> simp_all [noOperand]

/-- Form (b) of R75: of the `BUILD` words only the four mode words are accepted, each as its own command. -/
theorem encode_of_decodeBuild {w : Half} {i : Instr} (h : decodeBuild w = .ok i) :
    encode i = commandWord 0x30 (argOf w) := by
  unfold decodeBuild at h
  split at h
  next hzero =>
    rw [argOf_eq_modeBits, hzero]
    split at h
    all_goals
      rename_i hA hR
      cases h
      rw [hA, hR]
      rfl
  next => cases h

/-- Form (c) of R75: the word of an operand-free command, by its operation byte. -/
theorem encode_of_noOperand {w : Half} {i j : Instr} (op : Byte) (hop : (opOf w).toNat = op.toNat)
    (hj : encode j = commandWord op 0x00) (h : noOperand w j = .ok i) : encode i = w := by
  obtain ⟨harg, rfl⟩ := noOperand_eq_ok.mp h
  rw [hj, ← harg, commandWord_argOf op hop]

/-- The decoder accepts only the word of the command it gives. -/
theorem encode_of_decode {w : Half} {i : Instr} (h : decode w = .ok i) : encode i = w := by
  unfold decode at h
  split at h
  next hop => exact encode_of_noOperand 0x00 hop rfl h
  next hop => exact encode_of_noOperand 0x01 hop rfl h
  next hop => exact encode_of_noOperand 0x02 hop rfl h
  next hop => exact encode_of_noOperand 0x10 hop rfl h
  next hop => cases h; exact commandWord_argOf 0x11 hop
  next hop => exact encode_of_noOperand 0x12 hop rfl h
  next hop => exact encode_of_noOperand 0x20 hop rfl h
  next hop => cases h; exact commandWord_argOf 0x21 hop
  next hop => exact encode_of_noOperand 0x22 hop rfl h
  next hop => exact encode_of_noOperand 0x23 hop rfl h
  next hop => exact (encode_of_decodeBuild h).trans (commandWord_argOf 0x30 hop)
  next hop => exact encode_of_noOperand 0x31 hop rfl h
  next hop => exact encode_of_noOperand 0x40 hop rfl h
  next hop => exact encode_of_noOperand 0x41 hop rfl h
  next hop => exact encode_of_noOperand 0x42 hop rfl h
  next => cases h

end Sys2Proof

namespace Sys2Proof.Laws

/-- Every command's word selects its own row of the opcode map and no other. -/
theorem OwnRow.all (i : Instr) : OwnRow.Statement i := by
  cases i with
  | nop => exact OwnRow.nop
  | errclr => exact OwnRow.errclr
  | srst => exact OwnRow.srst
  | iclr => exact OwnRow.iclr
  | ipush imm8 => exact OwnRow.ipush imm8
  | ih2b => exact OwnRow.ih2b
  | crcclr => exact OwnRow.crcclr
  | crcadd imm8 => exact OwnRow.crcadd imm8
  | crchex => exact OwnRow.crchex
  | crcraw => exact OwnRow.crcraw
  | bldrH => exact OwnRow.bldrH
  | bldaH => exact OwnRow.bldaH
  | bldrR => exact OwnRow.bldrR
  | bldaR => exact OwnRow.bldaR
  | lclr => exact OwnRow.lclr
  | pxscan => exact OwnRow.pxscan
  | pxpack => exact OwnRow.pxpack
  | pxemit => exact OwnRow.pxemit

/-- R76: the row of a command is in the table, and its word selects it. -/
theorem opcodeRow_selects_encode (i : Instr) :
    opcodeRow i ∈ opcodeTable ∧ (opcodeRow i).selects (encode i) = true := by
  have hmem : opcodeRow i ∈ opcodeTable.filter fun r => r.selects (encode i) := by
    rw [OwnRow.all i]
    exact List.mem_singleton_self _
  exact List.mem_filter.mp hmem

/-- R78: the decoder rejects a word that no row selects. -/
theorem decode_eq_error_of_unselected {w : Half} (h : ∀ r ∈ opcodeTable, r.selects w = false) :
    ∃ e, decode w = .error e := by
  cases hd : decode w with
  | error e => exact ⟨e, rfl⟩
  | ok i =>
    obtain ⟨hmem, hsel⟩ := opcodeRow_selects_encode i
    rw [encode_of_decode hd, h _ hmem] at hsel
    cases hsel

end Sys2Proof.Laws

namespace Sys2Proof.Machine

/-- R56: with `BUSY` set and no access overtaking, the step is the latched command's. -/
theorem step_eq_runLatched {s : State} (hbusy : s.busy = true) (hfree : CommandUndisturbed s) :
    step s = runLatched s := by
  rcases step_cases s with ⟨-, hidle, -⟩ | ⟨-, -, hstep⟩ | ⟨ev, rest, hq, hturn, -⟩
  · simp [hbusy] at hidle
  · exact hstep
  · have hwaits : ev.overlap = false := hfree ev (by simp [hq])
    simp [hbusy, hwaits] at hturn

/-- A 16-bit word fits the 32-bit register of its detail value (R231). -/
theorem word32_toNat_half (w : Half) : word32 w.toNat = w.setWidth 32 := by
  rw [word32, if_pos (by omega), BitVec.ofNat_toNat]

/-- Settles O6: the decoder rejects an unselected word, and `illegalCommand` raises the fault of R231. -/
theorem illegalWordFaults : Obligations.IllegalWordFaults := by
  intro s hbusy hfree herr hsel
  obtain ⟨e, he⟩ := Laws.decode_eq_error_of_unselected hsel
  calc step s = runLatched s := step_eq_runLatched hbusy hfree
    _ = illegalCommand s := by rw [runLatched, he]
    _ = .next (complete (raiseFault (.illcmd, s.cmd.toNat) s)) := command_error _ herr
    _ = _ := by rw [raiseFault, word32_toNat_half]; rfl

end Sys2Proof.Machine
end

section
/-! PROOFS. The Frame by byte offset (spec 30_encoding.md R70, 42 R125 to R127). -/

namespace Sys2Proof.Machine

/-- R127: the checksum is the sum of the two LENGTH bytes and the content, modulo 65536. -/
theorem frameCrc_toNat {content : List Byte} (h : content.length ≤ 65533) :
    (frameCrc content).toNat = (frameLength content % 256 + frameLength content / 256 +
      (content.map BitVec.toNat).sum) % 65536 := by
  have hhigh : frameLength content / 256 < 256 := by unfold frameLength; omega
  simp [frameCrc, sum16, le16, Nat.mod_eq_of_lt hhigh, Nat.add_assoc]

/-- The two bytes of a little-endian field, for a value that fits it (R14). -/
theorem le16_toNat {v : Nat} (h : v < 65536) :
    (BitVec.ofNat 8 (v % 256)).toNat = v % 256 ∧ (BitVec.ofNat 8 (v / 256)).toNat = v / 256 := by
  simp only [BitVec.toNat_ofNat]
  omega

/-- R70: three bytes before the content and three after it. -/
theorem frame_eq (content : List Byte) :
    frame content =
      [0x01, BitVec.ofNat 8 (frameLength content % 256), BitVec.ofNat 8 (frameLength content / 256)] ++ content ++
      [BitVec.ofNat 8 ((frameCrc content).toNat % 256), BitVec.ofNat 8 ((frameCrc content).toNat / 256), 0x02] := by
  simp [frame, le16, framePrefix, frameSuffix]

theorem frame_length (content : List Byte) : (frame content).length = content.length + 6 := by
  simp [frame_eq]

/-- The content stands at offset 3 of its frame. -/
theorem frame_getElem?_content {content : List Byte} {k : Nat} (hk : k < content.length) :
    (frame content)[3 + k]? = content[k]? := by
  rw [frame_eq, List.append_assoc, List.getElem?_append_right (by simp), List.getElem?_append_left (by simpa using hk)]
  simp

/-- The checksum and the suffix follow the content. -/
theorem frame_getElem?_trailer (content : List Byte) (j : Nat) :
    (frame content)[content.length + 3 + j]? =
      [BitVec.ofNat 8 ((frameCrc content).toNat % 256), BitVec.ofNat 8 ((frameCrc content).toNat / 256), 0x02][j]? := by
  rw [frame_eq, List.getElem?_append_right (by simp)]
  congr 1
  simp

/-- Settles O37, part by part from the layout of R70. -/
theorem frameFieldByField : Obligations.FrameFieldByField := by
  rintro content - hmax n l crc rfl hl hcrc
  replace hl : l = frameLength content := hl
  have hlen : l < 65536 := by unfold frameLength at hl; omega
  obtain rfl : crc = (frameCrc content).toNat := by rw [hcrc, frameCrc_toNat hmax, hl]
  subst hl
  obtain ⟨hlenLow, hlenHigh⟩ := le16_toNat hlen
  obtain ⟨hcrcLow, hcrcHigh⟩ := le16_toNat (frameCrc content).isLt
  refine ⟨frame_length content, rfl, congrArg some hlenLow, congrArg some hlenHigh,
    fun k hk => frame_getElem?_content hk, ?_, ?_, frame_getElem?_trailer content 2⟩
  · rw [← Nat.add_zero (content.length + 3), frame_getElem?_trailer]
    exact congrArg some hcrcLow
  · rw [show content.length + 4 = content.length + 3 + 1 from rfl, frame_getElem?_trailer]
    exact congrArg some hcrcHigh

end Sys2Proof.Machine
end

section
/-! PROOFS. Hex text in the input buffer (spec 40 R91 to R97): which texts `hex2b` reads and what each byte is made of,
the hex reading of `IBUF` clause by clause, the three commands of the unit, and the serial converter. -/

namespace Sys2Proof.Machine

theorem isHexDigit_iff {c : Byte} : isHexDigit c = true ↔ ∃ v, hexval c = some v := Option.isSome_iff_exists

/-- R17: the domain of `hex2b` holds every even-length text of hex digits. -/
theorem exists_hex2b_of_digits : ∀ {text : List Byte}, text.length % 2 = 0 → (∀ c ∈ text, isHexDigit c = true) →
    ∃ content, hex2b text = some content
  | [], _, _ => ⟨[], rfl⟩
  | [_], heven, _ => nomatch heven
  | hi :: lo :: rest, heven, hdigits => by
    simp only [List.forall_mem_cons, isHexDigit_iff] at hdigits
    obtain ⟨⟨h, hh⟩, ⟨l, hl⟩, hrest⟩ := hdigits
    have hrestEven : rest.length % 2 = 0 := by simp only [List.length_cons] at heven; omega
    obtain ⟨bs, hbs⟩ := exists_hex2b_of_digits hrestEven fun c hc => isHexDigit_iff.mpr (hrest c hc)
    exact ⟨_, hex2b_pair_eq_some.mpr ⟨h, l, bs, hh, hl, hbs, rfl⟩⟩

/-- R17: the domain of `hex2b` holds no other character. -/
theorem isHexDigit_of_hex2b : ∀ {text content : List Byte}, hex2b text = some content →
    ∀ c ∈ text, isHexDigit c = true
  | [], _, _ => nofun
  | [_], _, htext => nomatch htext
  | hi :: lo :: rest, content, htext => by
    obtain ⟨h, l, bs, hh, hl, hbs, -⟩ := hex2b_pair_eq_some.mp htext
    simp only [List.forall_mem_cons]
    exact ⟨isHexDigit_iff.mpr ⟨h, hh⟩, isHexDigit_iff.mpr ⟨l, hl⟩, isHexDigit_of_hex2b hbs⟩

/-- R17: byte `k` comes from characters `2k` and `2k + 1`, the first the high nibble. -/
theorem hex2b_getElem? : ∀ {text content : List Byte} {k : Nat}, hex2b text = some content → k < content.length →
    ∃ hi lo h l, text[2 * k]? = some hi ∧ text[2 * k + 1]? = some lo ∧ hexval hi = some h ∧ hexval lo = some l ∧
      content[k]? = some (BitVec.ofNat 8 (16 * h + l))
  | [], content, k, htext, hk => by
    obtain rfl : [] = content := Option.some.inj htext
    exact absurd hk (Nat.not_lt_zero k)
  | [_], _, _, htext, _ => nomatch htext
  | hi :: lo :: rest, content, k, htext, hk => by
    obtain ⟨h, l, bs, hh, hl, hbs, rfl⟩ := hex2b_pair_eq_some.mp htext
    cases k with
    | zero => exact ⟨hi, lo, h, l, rfl, rfl, hh, hl, rfl⟩
    | succ k => simpa [Nat.mul_succ] using hex2b_getElem? hbs (Nat.lt_of_succ_lt_succ hk)

/-- The search of `hexcheck` finds the `i` of R94's `BAD(i)`. -/
theorem findIdx_of_firstNonHex {text : List Byte} {i : Nat} (h : FirstNonHex text i) :
    (text.findIdx fun c => !isHexDigit c) = i := by
  obtain ⟨⟨c, hc, hbad⟩, hbefore⟩ := h
  obtain ⟨hi, rfl⟩ := List.getElem?_eq_some_iff.mp hc
  rw [List.findIdx_eq hi]
  refine ⟨by simp [hbad], fun j hj => ?_⟩
  simp [hbefore j hj _ (List.getElem?_eq_getElem (by omega))]

/-! ### The hex reading of `IBUF`, clause by clause (R95) -/

theorem hexOperand_of_odd {s : State} (hodd : s.ilen % 2 = 1) : hexOperand s = .error (.oddhex, s.ilen) := by
  rcases hexOperand_cases s with ⟨-, he⟩ | ⟨heven, -, -⟩ | ⟨content, -, hlen, -⟩
  · exact he
  · omega
  · omega

theorem hexOperand_of_firstNonHex {s : State} {i : Nat} (heven : s.ilen % 2 = 0) (hbad : FirstNonHex s.ibuf i) :
    hexOperand s = .error (.badhex, i) := by
  rcases hexOperand_cases s with ⟨hodd, -⟩ | ⟨-, -, he⟩ | ⟨content, htext, -, -⟩
  · omega
  · rw [he, findIdx_of_firstNonHex hbad]
  · obtain ⟨⟨c, hc, hnot⟩, -⟩ := hbad
    rw [isHexDigit_of_hex2b htext c (List.mem_of_getElem? hc)] at hnot
    cases hnot

theorem hexOperand_of_hex2b {s : State} {content : List Byte} (htext : hex2b s.ibuf = some content) :
    hexOperand s = .ok content := by
  have hlen : s.ilen = 2 * content.length := hex2b_length htext
  rcases hexOperand_cases s with ⟨hodd, -⟩ | ⟨-, hnone, -⟩ | ⟨bs, hbs, -, he⟩
  · omega
  · simp [htext] at hnone
  · obtain rfl : bs = content := Option.some.inj (hbs.symm.trans htext)
    exact he

/-! ### The commands of the unit -/

/-- R234 as the statements write it: a fault raised with `ERR` clear ends in `faultState`. -/
theorem command_error_eq_faultState {s : State} (code : ErrCode) (info : Nat) (herr : s.err = false) :
    command s (.error (code, info)) = .next (faultState s code.code info) := command_error _ herr

theorem exec_ih2b_of_error {s : State} {code : ErrCode} {info : Nat} (herr : s.err = false)
    (h : hexOperand s = .error (code, info)) : exec .ih2b s = .next (faultState s code.code info) := by
  change execIh2b s = _
  rw [execIh2b, h]
  exact command_error_eq_faultState code info herr

theorem exec_ih2b_of_hex2b {s : State} {content : List Byte} (herr : s.err = false)
    (htext : hex2b s.ibuf = some content) :
    exec .ih2b s = .next { s with busy := false, ibuf := content } := by
  change execIh2b s = _
  rw [execIh2b, hexOperand_of_hex2b htext]
  exact command_ok _ herr

/-- Settles O29: the two faults by the clauses of the hex reading, the bytes by the pairs `hex2b` reads. -/
theorem ih2bConvertsInPlace : Obligations.Ih2bConvertsInPlace := by
  intro s herr
  refine ⟨fun hodd => exec_ih2b_of_error herr (hexOperand_of_odd hodd),
    fun i heven hbad => exec_ih2b_of_error herr (hexOperand_of_firstNonHex heven hbad), fun heven hdigits => ?_⟩
  obtain ⟨content, htext⟩ := exists_hex2b_of_digits heven hdigits
  have hlen : s.ilen = 2 * content.length := hex2b_length htext
  exact ⟨content, exec_ih2b_of_hex2b herr htext, by omega, fun k hk => hex2b_getElem? htext hk⟩

/-- Settles O27: the command does not fault. -/
theorem iclrEmptiesTheInputBuffer : Obligations.IclrEmptiesTheInputBuffer :=
  fun _ herr => command_ok _ herr

/-- Settles O28, by whether the buffer has room. -/
theorem ipushAppendsOneOctet : Obligations.IpushAppendsOneOctet := by
  intro s b herr
  constructor
  · intro hroom
    change execIpush b s = _
    rw [execIpush, if_neg hroom, ibufAppend_eq]
    exact command_ok _ herr
  · intro hfull
    change execIpush b s = _
    rw [execIpush, if_pos hfull]
    exact command_error_eq_faultState .ifull s.ilen herr

/-! ### The serial converter (R96) -/

/-- A digit in phase 0 is latched and nothing is emitted. -/
theorem hexUnitStep_latch {c : Byte} {v : Nat} (nib : BitVec 4) (hc : hexval c = some v) :
    hexUnitStep (HexUnit.start nib) c = some (⟨true, BitVec.ofNat 4 v⟩, []) := by
  simp [hexUnitStep, HexUnit.start, hc]

/-- A digit in phase 1 completes a byte with the latched nibble, and the unit is back in phase 0. -/
theorem hexUnitStep_emit {c : Byte} {v : Nat} (nib : BitVec 4) (hc : hexval c = some v) :
    hexUnitStep ⟨true, nib⟩ c = some (HexUnit.start nib, [BitVec.ofNat 8 (16 * nib.toNat + v)]) := by
  simp [hexUnitStep, HexUnit.start, hc]

/-- What one character emits stands before what the rest emits. -/
theorem hexUnitRun_cons {u u' : HexUnit} {c : Byte} {out : List Byte} (hstep : hexUnitStep u c = some (u', out))
    (cs : List Byte) : hexUnitRun u (c :: cs) = (hexUnitRun u' cs).map fun r => (r.1, out ++ r.2) := by
  rw [hexUnitRun, hstep]
  cases hrun : hexUnitRun u' cs <;> simp [hrun]

/-- After the text of whole bytes the converter has emitted them and stands at its start again, whatever follows; only
the latch may differ. -/
theorem hexUnitRun_append_of_hex2b : ∀ {text out : List Byte} (nib : BitVec 4), hex2b text = some out →
    ∃ nib', ∀ tail, hexUnitRun (HexUnit.start nib) (text ++ tail) =
      (hexUnitRun (HexUnit.start nib') tail).map fun r => (r.1, out ++ r.2)
  | [], out, nib, htext => by
    obtain rfl : [] = out := Option.some.inj htext
    exact ⟨nib, fun tail => by simp⟩
  | [_], _, _, htext => nomatch htext
  | hi :: lo :: rest, out, nib, htext => by
    obtain ⟨h, l, bs, hh, hl, hbs, rfl⟩ := hex2b_pair_eq_some.mp htext
    obtain ⟨nib', hrest⟩ := hexUnitRun_append_of_hex2b (BitVec.ofNat 4 h) hbs
    have hlatch : (BitVec.ofNat 4 h).toNat = h := Nat.mod_eq_of_lt (hexval_lt hh)
    refine ⟨nib', fun tail => ?_⟩
    rw [List.cons_append, List.cons_append, hexUnitRun_cons (hexUnitStep_latch nib hh),
      hexUnitRun_cons (hexUnitStep_emit _ hl), hlatch,
      hrest, Option.map_map, Option.map_map]
    rfl

/-- Settles O54: nothing follows an even-length text, and one latched character follows the even part of an odd one. -/
theorem serialHexUnitEmitsTheBytes : Obligations.SerialHexUnitEmitsTheBytes := by
  intro nib text hdigits
  rcases Nat.mod_two_eq_zero_or_one text.length with heven | hodd
  · obtain ⟨out, hout⟩ := exists_hex2b_of_digits heven hdigits
    obtain ⟨nib', hrun⟩ := hexUnitRun_append_of_hex2b nib hout
    refine ⟨HexUnit.start nib', out, ?_, fun _ => ⟨rfl, hout⟩, fun hodd => by omega⟩
    simpa [hexUnitRun] using hrun []
  · obtain rfl | ⟨init, c, rfl⟩ := text.eq_nil_or_concat'
    · cases hodd
    rw [List.length_append, List.length_singleton] at hodd
    obtain ⟨hinit, hc⟩ := List.forall_mem_append.mp hdigits
    obtain ⟨v, hv⟩ := isHexDigit_iff.mp (hc c (List.mem_singleton_self c))
    obtain ⟨out, hout⟩ := exists_hex2b_of_digits (by omega : init.length % 2 = 0) hinit
    obtain ⟨nib', hrun⟩ := hexUnitRun_append_of_hex2b nib hout
    refine ⟨⟨true, BitVec.ofNat 4 v⟩, out, ?_, fun heven => ?_, fun _ => ⟨rfl, by rwa [List.dropLast_concat]⟩⟩
    · rw [hrun [c], hexUnitRun_cons (hexUnitStep_latch nib' hv)]
      simp [hexUnitRun]
    · rw [List.length_append, List.length_singleton] at heven
      omega

end Sys2Proof.Machine
end

section
/-! PROOFS. The checksum (spec 41 R111, R119) and the four commands of the accumulator (R112 to R115). -/

namespace Sys2Proof.Machine

theorem accStep_toNat (a : Half) (b : Byte) : (accStep a b).toNat = (a.toNat + b.toNat) % 65536 :=
  BitVec.toNat_ofNat ..

theorem sum16_toNat (bs : List Byte) : (sum16 bs).toNat = (bs.map BitVec.toNat).sum % 65536 :=
  BitVec.toNat_ofNat ..

/-- R119: concatenation. -/
theorem sum16_append_toNat (x y : List Byte) :
    (sum16 (x ++ y)).toNat = ((sum16 x).toNat + (sum16 y).toNat) % 65536 := by
  simp only [sum16_toNat, List.map_append, List.sum_append, Nat.add_mod_mod, Nat.mod_add_mod]

/-- R119: the checksum does not detect reordering. -/
theorem sum16_eq_of_perm {x y : List Byte} (h : x.Perm y) : sum16 x = sum16 y :=
  congrArg (BitVec.ofNat 16) (h.map BitVec.toNat).sum_eq

/-- R119: `k` equal bytes. -/
theorem sum16_replicate_toNat (b : Byte) (k : Nat) :
    (sum16 (List.replicate k b)).toNat = (b.toNat * k) % 65536 := by
  rw [sum16_toNat, List.map_replicate, List.sum_replicate, smul_eq_mul, Nat.mul_comm]

/-- A byte is at most 255. -/
theorem byteSum_le : ∀ bs : List Byte, (bs.map BitVec.toNat).sum ≤ 255 * bs.length
  | [] => Nat.le_refl 0
  | b :: bs => by
    have hb : b.toNat < 256 := b.isLt
    have hbs := byteSum_le bs
    simp only [List.map_cons, List.sum_cons, List.length_cons]
    omega

/-- R119: `255 × 257 = 65535`, so 257 bytes do not wrap. -/
theorem sum16_toNat_of_length_le {bs : List Byte} (h : bs.length ≤ 257) :
    (sum16 bs).toNat = (bs.map BitVec.toNat).sum := by
  have hsum := byteSum_le bs
  rw [sum16_toNat, Nat.mod_eq_of_lt (by omega)]

/-- Settles O43, law by law; that of equal bytes gives the value for the 258 bytes. -/
theorem checksumLaws : Obligations.ChecksumLaws :=
  ⟨sum16_append_toNat, fun _ _ => sum16_eq_of_perm, sum16_replicate_toNat, byteSum_le,
    fun _ => sum16_toNat_of_length_le, sum16_replicate_toNat 0xFF 258⟩

/-- R111: one byte more is one step more. -/
theorem sum16_concat (bs : List Byte) (b : Byte) : sum16 (bs ++ [b]) = accStep (sum16 bs) b := by
  apply BitVec.eq_of_toNat_eq
  simp only [accStep_toNat, sum16_toNat, List.map_append, List.sum_append, List.map_singleton, List.sum_singleton,
    Nat.mod_add_mod]

theorem sum16_eq_foldl (bs : List Byte) : sum16 bs = bs.foldl accStep 0 := by
  induction bs using List.reverseRecOn with
  | nil => rfl
  | append_singleton bs b ih => rw [sum16_concat, ih, List.foldl_concat]

/-- Settles O44: the fold follows from the law of one byte more. -/
theorem checksumIsTheAccumulatorFold : Obligations.ChecksumIsTheAccumulatorFold :=
  ⟨accStep_toNat, rfl, sum16_concat, sum16_eq_foldl⟩

theorem exec_crchex_of_error {s : State} {code : ErrCode} {info : Nat} (herr : s.err = false)
    (h : hexOperand s = .error (code, info)) : exec .crchex s = .next (faultState s code.code info) := by
  change execCrchex s = _
  rw [execCrchex, h]
  exact command_error_eq_faultState code info herr

theorem exec_crchex_of_hex2b {s : State} {content : List Byte} (herr : s.err = false)
    (htext : hex2b s.ibuf = some content) :
    exec .crchex s = .next { s with busy := false, acc := sum16 content } := by
  change execCrchex s = _
  rw [execCrchex, hexOperand_of_hex2b htext]
  exact command_ok _ herr

/-- Settles O31: the two faults and the content by the clauses of the hex reading. -/
theorem crchexSumsHexText : Obligations.CrchexSumsHexText := by
  intro s herr
  refine ⟨fun hodd => exec_crchex_of_error herr (hexOperand_of_odd hodd),
    fun i heven hbad => exec_crchex_of_error herr (hexOperand_of_firstNonHex heven hbad), fun heven hdigits => ?_⟩
  obtain ⟨content, htext⟩ := exists_hex2b_of_digits heven hdigits
  exact ⟨content, htext, exec_crchex_of_hex2b herr htext⟩

/-- Settles O30: none of the three commands faults. -/
theorem accumulatorCommandResults : Obligations.AccumulatorCommandResults := by
  intro s herr
  refine ⟨?crcclr, fun b => ⟨accStep s.acc b, ?crcadd, accStep_toNat s.acc b⟩,
    sum16 s.ibuf, ?crcraw, sum16_toNat s.ibuf⟩
  case crcclr => exact command_ok { s with acc := 0 } herr
  case crcadd => exact command_ok { s with acc := accStep s.acc b } herr
  case crcraw => exact command_ok { s with acc := sum16 s.ibuf } herr

end Sys2Proof.Machine
end

section
/-! PROOFS. The frame builder (spec 42 R130 to R139): an empty build, the frame read back field by field (R139), and
the list that a replace build leaves, joined again from its chunks (43 R145). -/

namespace Sys2Proof.Machine

/-! ### A build of nothing (R131) -/

theorem build_of_empty (append raw : Bool) {s : State} (hempty : s.ilen = 0) : build append raw s = .ok s :=
  if_pos hempty

/-- An operation that changes nothing only completes, under the error-stop or not. -/
theorem command_self (s : State) : command s (.ok s) = .next (complete s) := by
  cases herr : s.err with
  | true => exact command_of_err _ herr
  | false => exact command_ok s herr

/-- Settles O34: each of the four commands is `build` with its own two mode bits. -/
theorem emptyBuildIsANoOp : Obligations.EmptyBuildIsANoOp := by
  intro s i hi hempty
  have hbuild (append raw : Bool) : command s (build append raw s) = .next { s with busy := false } := by
    rw [build_of_empty append raw hempty]
    exact command_self s
  rcases hi with rfl | rfl | rfl | rfl
  · exact hbuild false false
  · exact hbuild true false
  · exact hbuild false true
  · exact hbuild true true

/-! ### The frame read back (R139) -/

theorem unle16_le16 {v : Nat} (hv : v < 65536) :
    unle16 (BitVec.ofNat 8 (v % 256)) (BitVec.ofNat 8 (v / 256)) = v := by
  obtain ⟨hlow, hhigh⟩ := le16_toNat hv
  rw [unle16, hlow, hhigh]
  exact Nat.mod_add_div v 256

theorem frame_eq_cons (content : List Byte) :
    frame content = framePrefix :: BitVec.ofNat 8 (frameLength content % 256) ::
      BitVec.ofNat 8 (frameLength content / 256) :: (frame content).drop 3 := by
  simp [frame_eq, framePrefix]

theorem frame_content (content : List Byte) : ((frame content).drop 3).take content.length = content := by
  simp [frame_eq]

/-- R127: the bytes that the checksum covers are LENGTH and the content. -/
theorem frame_covered (content : List Byte) :
    ((frame content).drop 1).take (frameLength content) = le16 (frameLength content) ++ content := by
  simp [frame_eq, frameLength, le16]

theorem frame_checksum (content : List Byte) :
    ((frame content).drop (frameLength content + 1)).take 2 = le16 (frameCrc content).toNat := by
  simp [frame_eq, frameLength, le16]

theorem frame_suffix (content : List Byte) : (frame content)[frameLength content + 3]? = some frameSuffix :=
  frame_getElem?_trailer content 2

/-- R139: what `deframe` checks, field by field, and the content it then answers. -/
theorem deframe_of_checks {low high : Byte} {rest f : List Byte} {length : Nat}
    (hf : f = framePrefix :: low :: high :: rest) (hlength : unle16 low high = length) (hpos : 3 ≤ length)
    (hlen : f.length = length + 4) (hsuffix : f[length + 3]? = some frameSuffix)
    (hcheck : (f.drop (length + 1)).take 2 = le16 (sum16 ((f.drop 1).take length)).toNat) :
    deframe f = some ((f.drop 3).take (length - 2)) := by
  subst hf hlength
  exact if_pos ⟨by omega, rfl, hpos, hlen, hsuffix, hcheck⟩

/-- R139: every check passes on a frame, and its content is what was framed. -/
theorem deframe_frame {content : List Byte} (hpos : 1 ≤ content.length) (hmax : content.length ≤ 65533) :
    deframe (frame content) = some content := by
  have hlength := unle16_le16 (v := frameLength content) (by unfold frameLength; omega)
  have hcheck : ((frame content).drop (frameLength content + 1)).take 2 =
      le16 (sum16 (((frame content).drop 1).take (frameLength content))).toNat := by
    rw [frame_checksum, frame_covered, frameCrc]
  rw [deframe_of_checks (frame_eq_cons content) hlength (Nat.add_le_add_right hpos 2) (frame_length content)
    (frame_suffix content) hcheck]
  exact congrArg some (frame_content content)

/-! ### The list after a replace build -/

theorem flatten_cut {α : Type} (m k : Nat) (xs : List α) : (cut m k xs).flatten = xs.take (k * m) := by
  induction k generalizing xs with
  | zero => simp [cut]
  | succ k ih => rw [cut, List.flatten_cons, ih, Nat.succ_mul, Nat.add_comm, List.take_add]

/-- R145: the chunks, joined again, are the bytes they were cut from. -/
@[simp] theorem flatten_chunks (f : List Byte) : (chunks f).flatten = f := by
  have hroom : f.length ≤ chunkCount f.length * chunkBytes := by unfold chunkCount chunkBytes; omega
  rw [chunks, flatten_cut, List.take_of_length_le hroom]

/-- R132, R133: a replace build that succeeds on a non-empty buffer leaves the chunks of one frame and no others. -/
theorem oml_of_replaceBuild {s t : State} {raw : Bool} (hfull : s.ilen ≠ 0)
    (hrun : command s (build false raw s) = .next t) (herr : s.err = false) (hok : t.err = false) :
    ∃ content, buildContent raw s = .ok content ∧ t.oml = chunks (frame content) := by
  rcases command_cases hrun with ⟨hstop, -⟩ | ⟨-, u, hbuild, rfl⟩ | ⟨-, r, -, rfl⟩
  case inl => rw [herr] at hstop; cases hstop
  case inr.inr => cases hok
  rcases build_ok_cases hbuild with ⟨hempty, -⟩ | ⟨content, -, hcontent, -, rfl⟩
  · exact absurd hempty hfull
  · exact ⟨content, hcontent, rfl⟩

theorem contentMax_le {c : Config} (hwf : c.wellFormed = true) : c.contentMax ≤ 65533 := by
  simp only [Config.wellFormed, Bool.and_eq_true, decide_eq_true_eq] at hwf
  obtain ⟨⟨⟨-, hmax⟩, -⟩, -⟩ := hwf
  exact hmax

/-- R139 for either mode: the list left by a replace build is a frame of the content its mode reads in IBUF. -/
theorem deframe_oml_of_replaceBuild {s t : State} {raw : Bool} (hwf : s.cfg.wellFormed = true) (hfull : s.ilen ≠ 0)
    (hrun : command s (build false raw s) = .next t) (herr : s.err = false) (hok : t.err = false) :
    ∃ content, (if raw then content = s.ibuf else hex2b s.ibuf = some content) ∧
      deframe t.oml.flatten = some content := by
  obtain ⟨content, hcontent, homl⟩ := oml_of_replaceBuild hfull hrun herr hok
  obtain ⟨hpos, hmax, hread⟩ := buildContent_ok hcontent hfull
  refine ⟨content, hread, ?_⟩
  rw [homl, flatten_chunks]
  exact deframe_frame hpos (hmax.trans (contentMax_le hwf))

/-- Settles O38: the frame by `deframe`'s checks, the list because its chunks join to that frame. -/
theorem builtListDeframesToContent : Obligations.BuiltListDeframesToContent := by
  refine ⟨fun c => deframe_frame, fun s t hwf herr hfull hok => ⟨fun content htext hrun => ?hex, fun hrun => ?raw⟩⟩
  case hex =>
    obtain ⟨built, hread, hback⟩ := deframe_oml_of_replaceBuild (raw := false) hwf hfull hrun herr hok
    obtain rfl : content = built := Option.some.inj (htext.symm.trans hread)
    exact hback
  case raw =>
    obtain ⟨built, rfl, hback⟩ := deframe_oml_of_replaceBuild (raw := true) hwf hfull hrun herr hok
    exact hback

end Sys2Proof.Machine
end

section
/-! PROOFS. The chunker and the output list (spec 43 R145 to R152): a greedy cut piece by piece, the cut of the hex text
against that of the bytes (R149), and a build on the list that `LCLR` emptied (R152). -/

namespace Sys2Proof.Machine

/-! ### Greedy cuts (R145) -/

/-- Piece `j` of a cut starts after `j` whole pieces. -/
theorem cut_getElem? {α : Type} {m j k : Nat} (hj : j < k) (xs : List α) :
    (cut m k xs)[j]? = some ((xs.drop (m * j)).take m) := by
  induction k generalizing j xs with
  | zero => exact absurd hj j.not_lt_zero
  | succ k ih =>
    cases j with
    | zero => rfl
    | succ j =>
      rw [cut, List.getElem?_cons_succ, ih (Nat.lt_of_succ_lt_succ hj), List.drop_drop, Nat.mul_succ, Nat.add_comm m]

theorem chunks_length (f : List Byte) : (chunks f).length = (f.length + 665) / 666 := cut_length ..

/-- R145: chunk `j` is the bytes from `666 j`, at most 666 of them. -/
theorem chunks_getElem? {f : List Byte} {j : Nat} (hj : j < (f.length + 665) / 666) :
    (chunks f)[j]? = some ((f.drop (666 * j)).take 666) := cut_getElem? hj f

/-- R145: no chunk is empty, and none is longer than 666 bytes. -/
theorem length_of_mem_chunks {f ch : List Byte} (hch : ch ∈ chunks f) : 1 ≤ ch.length ∧ ch.length ≤ 666 := by
  obtain ⟨j, hlt, rfl⟩ := List.getElem_of_mem hch
  have hj : j < (f.length + 665) / 666 := chunks_length f ▸ hlt
  obtain ⟨_, hpiece⟩ := List.getElem_of_getElem? (chunks_getElem? hj)
  rw [hpiece, List.length_take, List.length_drop]
  omega

/-- Settles O39: the count and the pieces of the cut, its join, and the bounds of a piece. -/
theorem chunksCutGreedily : Obligations.ChunksCutGreedily := by
  refine fun f _ => ⟨chunks_length f, fun j hj => ?_, flatten_chunks f, fun _ => length_of_mem_chunks⟩
  rw [chunks_getElem? hj, Option.some.injEq, List.take_eq_take_iff, List.length_drop]
  omega

/-! ### Hex text cut at twice the size (R149) -/

theorem b2hex_take (n : Nat) (bs : List Byte) : b2hex (bs.take n) = (b2hex bs).take (2 * n) := by
  induction bs generalizing n with
  | nil => simp
  | cons b bs ih =>
    cases n with
    | zero => rfl
    | succ n => rw [List.take_succ_cons, b2hex_cons, ih, b2hex_cons, Nat.mul_succ]; rfl

theorem b2hex_drop (n : Nat) (bs : List Byte) : b2hex (bs.drop n) = (b2hex bs).drop (2 * n) := by
  induction bs generalizing n with
  | nil => simp
  | cons b bs ih =>
    cases n with
    | zero => rfl
    | succ n => rw [List.drop_succ_cons, ih, b2hex_cons, Nat.mul_succ]; rfl

/-- Two characters a byte: the text cut at twice the size is the text of the pieces. -/
theorem cut_b2hex (m k : Nat) (bs : List Byte) : cut (2 * m) k (b2hex bs) = (cut m k bs).map b2hex := by
  induction k generalizing bs with
  | zero => rfl
  | succ k ih => rw [cut, cut, List.map_cons, b2hex_take, ← ih, b2hex_drop]

/-- R149 for the model's own cut of a text. -/
theorem textChunks_b2hex (f : List Byte) : textChunks (b2hex f) = (chunks f).map b2hex := by
  have hcount : ((b2hex f).length + (chunkHex - 1)) / chunkHex = chunkCount f.length := by
    rw [b2hex_length]
    unfold chunkHex chunkCount chunkBytes
    omega
  rw [textChunks, hcount]
  exact cut_b2hex chunkBytes (chunkCount f.length) f

/-- Settles O40: the literal sizes are those of the model's cut, `b2hex f` having two characters a byte. -/
theorem textChunkingAgreesWithByteChunking : Obligations.TextChunkingAgreesWithByteChunking := by
  refine fun f _ => ⟨?_, textChunks_b2hex f⟩
  rw [← b2hex_length]
  exact textChunks_b2hex f

/-! ### A build on the emptied list (R152) -/

/-- A build on a non-empty buffer with content places that content's frame. -/
theorem build_eq_placeFrame {append raw : Bool} {s : State} {content : List Byte} (hfull : s.ilen ≠ 0)
    (hcontent : buildContent raw s = .ok content) :
    build append raw s = placeFrame s (if append then s.oml else []) content := by
  rw [build, if_neg hfull, hcontent]

theorem placeFrame_of_listHolds {s : State} {old : List (List Byte)} {content : List Byte}
    (hroom : listHolds s.cfg (old.length + (chunks (frame content)).length) = true) :
    placeFrame s old content = .ok (storeFrame s old content) := if_pos hroom

/-- With `ERR` clear, a command that leaves it clear has settled without a fault. -/
theorem settled_of_command {s u : State} {e : Except Raise State} (hrun : command s e = .next u)
    (herr : s.err = false) (hok : u.err = false) : ∃ v, e = .ok v ∧ u = complete v := by
  rcases command_cases hrun with ⟨hstop, -⟩ | ⟨-, settled⟩ | ⟨-, r, -, rfl⟩
  · cases herr.symm.trans hstop
  · exact settled
  · cases hok

/-- What `LCLR` leaves of a state (R152). -/
def afterLclr (s : State) : State := { s with busy := false, oml := [] }

theorem exec_lclr {s : State} (herr : s.err = false) : exec .lclr s = .next (afterLclr s) := command_ok _ herr

/-- R152 for either mode: an append that succeeds on the emptied list ends in the state of a replace, because both put
the new chunks after none. -/
theorem replace_of_append_afterLclr {s u : State} {raw : Bool} (herr : s.err = false) (hfull : s.ilen ≠ 0)
    (hrun : command (afterLclr s) (build true raw (afterLclr s)) = .next u) (hok : u.err = false) :
    command s (build false raw s) = .next u := by
  obtain ⟨v, hbuild, rfl⟩ := settled_of_command hrun herr hok
  rcases build_ok_cases hbuild with ⟨hempty, -⟩ | ⟨content, -, hcontent, hroom, rfl⟩
  · exact absurd hempty hfull
  · have hread : buildContent raw s = .ok content := hcontent
    have hplace : placeFrame s [] content = .ok (storeFrame s [] content) := placeFrame_of_listHolds hroom
    have hreplace : build false raw s = .ok (storeFrame s [] content) :=
      (build_eq_placeFrame hfull hread).trans hplace
    rw [hreplace]
    exact command_ok _ herr

/-- Settles O36: `LCLR` does not fault, and each pair of builds is `build` in its own mode. -/
theorem lclrEmptiesTheList : Obligations.LclrEmptiesTheList := by
  refine ⟨fun s => exec_lclr, fun s t u herr hfull hclear hok => ?_⟩
  rw [exec_lclr herr] at hclear
  obtain rfl : afterLclr s = t := by injection hclear
  exact ⟨fun hrun => replace_of_append_afterLclr (raw := false) herr hfull hrun hok,
    fun hrun => replace_of_append_afterLclr (raw := true) herr hfull hrun hok⟩

end Sys2Proof.Machine
end

section
/-! PROOFS. Colours as octets and the scan (spec 44 R165 to R168): the pixels of `IBUF` and back, the grid in row-major
order, and the first-seen palette with its index grid. -/

namespace Sys2Proof.Machine

/-! ### Colours as octets (R28, R165) -/

@[simp] theorem pixelCells_flatMap_bytes (cells : List Color) : pixelCells (cells.flatMap Color.bytes) = cells := by
  induction cells with
  | nil => rfl
  | cons c cells ih => exact congrArg (c :: ·) ih

/-- R165: octets in whole pixels are the octets of the cells they stand for. -/
theorem flatMap_bytes_pixelCells : ∀ {octets : List Byte}, octets.length % 3 = 0 →
    (pixelCells octets).flatMap Color.bytes = octets
  | [], _ => rfl
  | [_], hlen => nomatch hlen
  | [_, _], hlen => nomatch hlen
  | c0 :: c1 :: c2 :: rest, hlen => by
    have hrest : rest.length % 3 = 0 := by simp only [List.length_cons] at hlen; omega
    exact congrArg ([c0, c1, c2] ++ ·) (flatMap_bytes_pixelCells hrest)

theorem length_flatMap_bytes (cells : List Color) : (cells.flatMap Color.bytes).length = 3 * cells.length := by
  induction cells with
  | nil => rfl
  | cons c cells ih => rw [List.flatMap_cons, List.length_append, ih, List.length_cons, Nat.mul_succ, Nat.add_comm]; rfl

theorem memRead_ibuf_middle {s : State} {before v rest : List Byte} (hbuf : s.ibuf = before ++ v ++ rest) :
    s.memRead .ibuf before.length v.length = some v := by
  simp [State.memRead, State.bytes, hbuf]

/-- Colour `i` of a run of colours in `IBUF` is the three octets at `3i` from the start of the run. -/
theorem memRead_ibuf_color {s : State} {before rest : List Byte} {cells : List Color} {i : Nat} {c : Color}
    (hbuf : s.ibuf = before ++ cells.flatMap Color.bytes ++ rest) (hc : cells[i]? = some c) :
    s.memRead .ibuf (before.length + 3 * i) 3 = some c.bytes := by
  obtain ⟨hi, rfl⟩ := List.getElem?_eq_some_iff.mp hc
  have hcells : cells = cells.take i ++ cells[i] :: cells.drop (i + 1) := by simp
  have hsplit : s.ibuf = (before ++ (cells.take i).flatMap Color.bytes) ++ cells[i].bytes ++
      ((cells.drop (i + 1)).flatMap Color.bytes ++ rest) := by
    conv_lhs => rw [hbuf, hcells]
    simp only [List.flatMap_append, List.flatMap_cons, List.append_assoc]
  have hread := memRead_ibuf_middle hsplit
  rwa [List.length_append, length_flatMap_bytes, List.length_take, Nat.min_eq_left hi.le] at hread

/-! ### The grid in row-major order (R166) -/

/-- Rows of `w` columns, one after the other, are numbered `x + w y`. -/
theorem flatMap_range_rows {α : Type} (f : Nat → Nat → α) (w h : Nat) :
    ((List.range h).flatMap fun y => (List.range w).map fun x => f x y) =
      (List.range (h * w)).map fun i => f (i % w) (i / w) := by
  induction h with
  | zero => simp
  | succ h ih =>
    have hrow : ∀ x ∈ List.range w, f x h = f ((h * w + x) % w) ((h * w + x) / w) := by
      intro x hx
      have hx : x < w := List.mem_range.mp hx
      rw [Nat.mul_comm, Nat.mul_add_mod, Nat.mod_eq_of_lt hx, Nat.mul_add_div (by omega), Nat.div_eq_of_lt hx,
        Nat.add_zero]
    rw [List.range_succ, List.flatMap_append, ih, Nat.succ_mul, List.range_add, List.map_append, List.flatMap_singleton,
      List.map_map, List.map_congr_left hrow]
    rfl

/-- The pixels of a grid in scan order. -/
def gridPixels (getPixel : Nat → Nat → Color) : List Color :=
  (List.range 256).map fun i => getPixel (i % 16) (i / 16)

theorem gridOctets_eq (getPixel : Nat → Nat → Color) :
    gridOctets getPixel = (gridPixels getPixel).flatMap Color.bytes := by
  rw [gridPixels, ← flatMap_range_rows getPixel 16 16, List.flatMap_assoc]
  simp only [List.flatMap_map]
  rfl

/-! ### The first-seen palette (R167, R168) -/

theorem idxOf_le_of_getElem? {cells : List Color} {i : Nat} {c : Color} (hc : cells[i]? = some c) :
    cells.idxOf c ≤ i := by
  obtain ⟨hi, heq⟩ := List.getElem?_eq_some_iff.mp hc
  by_contra hlt
  simpa [heq] using List.not_of_lt_findIdx (p := (· == c)) (Nat.lt_of_not_le hlt)

/-- A seen colour keeps the palette, a new one is entered at its end; in both cases the cell gets the number the
palette then has for it. -/
theorem scanStep_eq (pal : List Color) (idx : List Byte) (c : Color) :
    scanStep (pal, idx) c =
      (if c ∈ pal then pal else pal ++ [c], idx ++ [BitVec.ofNat 8 (pal.idxOf c)]) := by
  have hfind : pal.findIdx? (· == c) = pal.idxOf? c := rfl
  by_cases hc : c ∈ pal
  · have hnum : pal.idxOf? c = some (pal.idxOf c) := by
      rw [List.idxOf?_eq_some_iff]
      exact ⟨List.idxOf_lt_length_of_mem hc, List.getElem_idxOf _, fun j hj heq =>
        hj.not_ge (idxOf_le_of_getElem? (List.getElem?_eq_some_iff.mpr ⟨_, heq⟩))⟩
    simp [scanStep, hfind, hnum, hc]
  · simp [scanStep, hfind, List.idxOf?_eq_none_iff.mpr hc, hc]

/-- What a scan of these cells has found (R168): the colours of the cells, in order of first appearance, and the number
of its colour for every cell. -/
structure FirstSeen (cells pal : List Color) (idx : List Byte) : Prop where
  mem_iff : ∀ c, c ∈ pal ↔ c ∈ cells
  order : pal.Pairwise fun a b => cells.idxOf a < cells.idxOf b
  numbers : idx = cells.map fun c => BitVec.ofNat 8 (pal.idxOf c)

theorem FirstSeen.nil : FirstSeen [] [] [] := ⟨fun _ => Iff.rfl, .nil, rfl⟩

/-- One more cell, its colour seen before. -/
theorem FirstSeen.concat_of_mem {cells pal : List Color} {idx : List Byte} {c : Color} (h : FirstSeen cells pal idx)
    (hc : c ∈ pal) : FirstSeen (cells ++ [c]) pal (idx ++ [BitVec.ofNat 8 (pal.idxOf c)]) where
  mem_iff d := by
    have hseen : d = c → d ∈ cells := by rintro rfl; exact (h.mem_iff d).mp hc
    simp only [h.mem_iff, List.mem_append, List.mem_singleton]
    tauto
  order := h.order.imp_of_mem fun ha hb hlt => by
    rwa [List.idxOf_append_of_mem ((h.mem_iff _).mp ha), List.idxOf_append_of_mem ((h.mem_iff _).mp hb)]
  numbers := by rw [h.numbers, List.map_append]; rfl

/-- One more cell of a new colour, which is entered at the end of the palette. -/
theorem FirstSeen.concat_of_notMem {cells pal : List Color} {idx : List Byte} {c : Color} (h : FirstSeen cells pal idx)
    (hc : c ∉ pal) : FirstSeen (cells ++ [c]) (pal ++ [c]) (idx ++ [BitVec.ofNat 8 (pal.idxOf c)]) where
  mem_iff d := by simp only [List.mem_append, h.mem_iff]
  order := by
    have hnew : c ∉ cells := fun hmem => hc ((h.mem_iff c).mpr hmem)
    rw [List.pairwise_append]
    refine ⟨h.order.imp_of_mem fun ha hb hlt => ?_, List.pairwise_singleton _ _, fun a ha b hb => ?_⟩
    · rwa [List.idxOf_append_of_mem ((h.mem_iff _).mp ha), List.idxOf_append_of_mem ((h.mem_iff _).mp hb)]
    · obtain rfl := List.mem_singleton.mp hb
      rw [List.idxOf_append_of_mem ((h.mem_iff _).mp ha), List.idxOf_append_of_notMem hnew]
      exact Nat.lt_add_right _ (List.idxOf_lt_length_of_mem ((h.mem_iff a).mp ha))
  numbers := by
    have hold : ∀ d ∈ cells, BitVec.ofNat 8 (pal.idxOf d) = BitVec.ofNat 8 ((pal ++ [c]).idxOf d) := fun d hd => by
      rw [List.idxOf_append_of_mem ((h.mem_iff d).mpr hd)]
    rw [h.numbers, List.map_append, List.map_congr_left hold]
    simp [List.idxOf_append_of_notMem hc, List.idxOf_eq_length_iff.mpr hc]

/-- The scan finds what R168 says, by one cell more at a time. -/
theorem firstSeen_scan (cells : List Color) : FirstSeen cells (scan cells).1 (scan cells).2 := by
  induction cells using List.reverseRecOn with
  | nil => exact .nil
  | append_singleton cells c ih =>
    have hscan : scan (cells ++ [c]) = scanStep ((scan cells).1, (scan cells).2) c := List.foldl_concat ..
    rw [hscan, scanStep_eq]
    by_cases hc : c ∈ (scan cells).1
    · simpa only [if_pos hc] using ih.concat_of_mem hc
    · simpa only [if_neg hc] using ih.concat_of_notMem hc

section FirstSeen

variable {cells pal : List Color} {idx : List Byte}

theorem FirstSeen.nodup (h : FirstSeen cells pal idx) : pal.Nodup :=
  h.order.imp fun hlt heq => absurd (heq ▸ hlt) (Nat.lt_irrefl _)

theorem FirstSeen.palette_length_le (h : FirstSeen cells pal idx) : pal.length ≤ cells.length :=
  h.nodup.length_le_of_subset fun c hc => (h.mem_iff c).mp hc

theorem FirstSeen.palette_length_pos (h : FirstSeen cells pal idx) (hcells : 0 < cells.length) : 0 < pal.length := by
  have hfirst : cells[0] ∈ pal := (h.mem_iff _).mpr (List.getElem_mem hcells)
  exact List.length_pos_of_mem hfirst

theorem FirstSeen.idx_length (h : FirstSeen cells pal idx) : idx.length = cells.length := by
  rw [h.numbers, List.length_map]

/-- R29: with at most 256 cells an index is the number itself, not a number modulo 256. -/
theorem FirstSeen.map_toNat (h : FirstSeen cells pal idx) (hcells : cells.length ≤ 256) :
    idx.map BitVec.toNat = cells.map fun c => pal.idxOf c := by
  rw [h.numbers, List.map_map]
  refine List.map_congr_left fun c hc => ?_
  have hlt : pal.idxOf c < pal.length := List.idxOf_lt_length_of_mem ((h.mem_iff c).mpr hc)
  exact Nat.mod_eq_of_lt (hlt.trans_le (h.palette_length_le.trans hcells))

/-- `PAL[IDX[i]] = col(i)` (R168). -/
theorem FirstSeen.lookup (h : FirstSeen cells pal idx) (hcells : cells.length ≤ 256) {i : Nat} {c : Color}
    (hc : cells[i]? = some c) : ∃ k, idx[i]? = some k ∧ k.toNat = pal.idxOf c ∧ pal[k.toNat]? = some c := by
  have hnum : (idx.map BitVec.toNat)[i]? = some (pal.idxOf c) := by simp [h.map_toNat hcells, hc]
  rw [List.getElem?_map, Option.map_eq_some_iff] at hnum
  obtain ⟨k, hk, hkc⟩ := hnum
  exact ⟨k, hk, hkc, hkc ▸ List.getElem?_idxOf ((h.mem_iff c).mpr (List.mem_of_getElem? hc))⟩

/-- Entry `k` first appears at cell `k` or later, because `k` others appear before it. -/
theorem FirstSeen.le_idxOf (h : FirstSeen cells pal idx) : ∀ {k : Nat} (hk : k < pal.length), k ≤ cells.idxOf pal[k]
  | 0, _ => Nat.zero_le _
  | k + 1, hk =>
    (h.le_idxOf (Nat.lt_of_succ_lt hk)).trans_lt (List.pairwise_iff_getElem.mp h.order k (k + 1) _ hk k.lt_succ_self)

/-- R168: the number of cell `i`'s colour is at most `i`. -/
theorem FirstSeen.number_le (h : FirstSeen cells pal idx) {i : Nat} {c : Color} (hc : cells[i]? = some c) :
    pal.idxOf c ≤ i := by
  have hlt : pal.idxOf c < pal.length := List.idxOf_lt_length_of_mem ((h.mem_iff c).mpr (List.mem_of_getElem? hc))
  have hle := h.le_idxOf hlt
  rw [List.getElem_idxOf] at hle
  exact hle.trans (idxOf_le_of_getElem? hc)

/-- R168: the index `k` first appears in the grid where the colour of entry `k` does. -/
theorem FirstSeen.findIdx_number (h : FirstSeen cells pal idx) (hcells : cells.length ≤ 256) {k : Nat}
    (hk : k < pal.length) : (idx.findIdx fun b => b.toNat == k) = cells.idxOf pal[k] := by
  have hmap : (idx.findIdx fun b => b.toNat == k) = (cells.map fun c => pal.idxOf c).findIdx (· == k) := by
    rw [← h.map_toNat hcells, List.findIdx_map]
    rfl
  have hmem : pal[k] ∈ cells := (h.mem_iff _).mp (List.getElem_mem hk)
  have hlt : cells.idxOf pal[k] < cells.length := List.idxOf_lt_length_of_mem hmem
  rw [hmap, List.findIdx_map, List.findIdx_eq hlt]
  refine ⟨by simp [h.nodup.idxOf_getElem], fun j hj => beq_eq_false_iff_ne.mpr fun hnum => ?_⟩
  have hj' : cells[j]? = some cells[j] := List.getElem?_eq_getElem (hj.trans hlt)
  obtain ⟨b, -, hb, hlook⟩ := h.lookup hcells hj'
  have hcolor : pal[k] = cells[j] := by
    rw [hb.trans hnum, List.getElem?_eq_getElem hk] at hlook
    exact Option.some.inj hlook
  exact hj.not_ge (idxOf_le_of_getElem? (hcolor ▸ hj'))

/-- R168: every entry is used. -/
theorem FirstSeen.entry_used (h : FirstSeen cells pal idx) (hcells : cells.length ≤ 256) {k : Nat}
    (hk : k < pal.length) : ∃ b ∈ idx, b.toNat = k := by
  have hmem : pal[k] ∈ cells := (h.mem_iff _).mp (List.getElem_mem hk)
  obtain ⟨b, hb, hnum, -⟩ := h.lookup hcells (List.getElem?_idxOf hmem)
  exact ⟨b, List.mem_of_getElem? hb, hnum.trans (h.nodup.idxOf_getElem k hk)⟩

end FirstSeen

end Sys2Proof.Machine
end

section
/-! PROOFS. The bit-packer (spec 44 R170 to R176): the width, the stream of index bits as a number, and the packed bytes
as the same stream cut into groups of 8. -/

namespace Sys2Proof.Machine

/-- R170: the width is enough for every entry number. -/
theorem le_two_pow_bitw {p : Nat} (hp : p ≤ 256) : p ≤ 2 ^ bitw p := by
  unfold bitw
  split
  next w hfind => simpa using List.find?_some hfind
  next => exact hp

/-! ### The stream of index bits (R171) -/

@[simp] theorem indexBits_length (w : Nat) (b : Byte) : (indexBits w b).length = w := by simp [indexBits]

theorem indexBits_succ (w : Nat) (b : Byte) : indexBits (w + 1) b = indexBits w b ++ [b.getLsbD w] := by
  simp [indexBits, List.range_succ]

theorem indexBits_getElem? {w j : Nat} (hj : j < w) (b : Byte) : (indexBits w b)[j]? = some (b.getLsbD j) := by
  simp [indexBits, hj]

theorem indexStream_cons (w : Nat) (b : Byte) (idx : List Byte) :
    indexStream w (b :: idx) = indexBits w b ++ indexStream w idx := rfl

@[simp] theorem indexStream_length (w : Nat) (idx : List Byte) : (indexStream w idx).length = w * idx.length := by
  induction idx with
  | nil => rfl
  | cons b idx ih =>
    rw [indexStream_cons, List.length_append, indexBits_length, ih, List.length_cons, Nat.mul_succ, Nat.add_comm]

/-- Stream bit `w i + j` is bit `j` of index `i`. -/
theorem indexStream_getElem? {w j : Nat} (hj : j < w) (idx : List Byte) (i : Nat) :
    (indexStream w idx)[w * i + j]? = idx[i]?.map fun b => b.getLsbD j := by
  induction idx generalizing i with
  | nil => rfl
  | cons b idx ih =>
    rw [indexStream_cons]
    cases i with
    | zero => rw [Nat.mul_zero, Nat.zero_add, List.getElem?_append_left (by simpa using hj), indexBits_getElem? hj]; rfl
    | succ i =>
      have hskip : w * (i + 1) + j = (indexBits w b).length + (w * i + j) := by
        rw [indexBits_length, Nat.mul_succ]; omega
      rw [hskip, List.getElem?_append_right (Nat.le_add_right ..), Nat.add_sub_cancel_left, ih]
      rfl

/-! ### Numbers in little-endian digits -/

/-- The bits of an index, low bit first, are its value modulo `2 ^ w`. -/
theorem ofDigits_indexBits (w : Nat) (b : Byte) :
    Nat.ofDigits 2 ((indexBits w b).map Bool.toNat) = b.toNat % 2 ^ w := by
  induction w with
  | zero => simp [indexBits, Nat.mod_one]
  | succ w ih =>
    have hbit : (b.getLsbD w).toNat = b.toNat / 2 ^ w % 2 := Nat.toNat_testBit b.toNat w
    rw [indexBits_succ, List.map_append, Nat.ofDigits_append, ih, List.length_map, indexBits_length, Nat.mod_pow_succ,
      List.map_singleton, Nat.ofDigits_singleton, hbit]

/-- R175: the stream as one number has the indices at `w` bits each. -/
theorem ofDigits_indexStream {w : Nat} {idx : List Byte} (hfit : ∀ b ∈ idx, b.toNat < 2 ^ w) :
    Nat.ofDigits 2 ((indexStream w idx).map Bool.toNat) = Nat.ofDigits (2 ^ w) (idx.map BitVec.toNat) := by
  induction idx with
  | nil => rfl
  | cons b idx ih =>
    obtain ⟨hb, hrest⟩ := List.forall_mem_cons.mp hfit
    rw [indexStream_cons, List.map_append, Nat.ofDigits_append, ofDigits_indexBits, Nat.mod_eq_of_lt hb, ih hrest,
      List.length_map, indexBits_length, List.map_cons, Nat.ofDigits_cons]

/-- The sums of R175 are numbers in little-endian digits. -/
theorem sum_zipIdx_eq_ofDigits (base : Nat) (bytes : List Byte) :
    (bytes.zipIdx.map fun x => x.1.toNat * base ^ x.2).sum = Nat.ofDigits base (bytes.map BitVec.toNat) := by
  rw [Nat.ofDigits_eq_sum_mapIdx, List.mapIdx_eq_zipIdx_map, List.zipIdx_map, List.map_map]
  rfl

/-- Looking a digit up in a number. -/
theorem ofDigits_div_pow_mod {base : Nat} (hbase : 0 < base) {digits : List Nat} (hfit : ∀ d ∈ digits, d < base)
    {i d : Nat} (hd : digits[i]? = some d) : Nat.ofDigits base digits / base ^ i % base = d := by
  obtain ⟨hi, rfl⟩ := List.getElem?_eq_some_iff.mp hd
  rw [Nat.ofDigits_div_pow_eq_ofDigits_drop i hbase digits hfit, List.drop_eq_getElem_cons hi, Nat.ofDigits_cons,
    Nat.add_mul_mod_self_left, Nat.mod_eq_of_lt (hfit _ (List.getElem_mem hi))]

/-! ### Groups of 8 bits (R172, R174) -/

/-- R172: a group reversed and read first character most significant has its first bit lowest. -/
theorem numeral_reverse (group : List Bool) : numeral group.reverse = (BitVec.ofBoolListLE group).toNat := by
  induction group with
  | nil => rfl
  | cons bit group ih =>
    have hlast : numeral (group.reverse ++ [bit]) = 2 * numeral group.reverse + bit.toNat := List.foldl_concat ..
    rw [List.reverse_cons, hlast, ih]
    simp [BitVec.ofBoolListLE, BitVec.toNat_concat]
    omega

/-- Under D21 the byte of a full group has the group as its bits, low bit first. -/
theorem indexBits_packGroup {group : List Bool} (hfull : group.length = 8) :
    indexBits 8 (packGroup false group) = group := by
  have hpad : padGroup group = group := by simp [padGroup, hfull]
  refine List.ext_getElem (by simp [hfull]) fun t ht _ => ?_
  have ht8 : t < 8 := by simpa using ht
  simp [indexBits, packGroup, hpad, numeral_reverse, ht8, hfull, BitVec.getLsbD_ofBoolListLE,
    List.getD_eq_getElem?_getD]

/-- R174: a stream of `8 k` bits leaves no short group, so the packed bytes read as bits are the stream. -/
theorem indexStream_map_packGroup {k : Nat} {bits : List Bool} (hlen : bits.length = k * 8) :
    indexStream 8 ((cut 8 k bits).map (packGroup false)) = bits := by
  induction k generalizing bits with
  | zero =>
    obtain rfl : bits = [] := List.length_eq_zero_iff.mp (hlen.trans (Nat.zero_mul 8))
    rfl
  | succ k ih =>
    have hgroup : (bits.take 8).length = 8 := by rw [List.length_take]; omega
    have hrest : (bits.drop 8).length = k * 8 := by rw [List.length_drop]; omega
    rw [cut, List.map_cons, indexStream_cons, indexBits_packGroup hgroup, ih hrest, List.take_append_drop]

/-- R171, R172 under D21: the bits of the packed bytes are the stream of index bits. -/
theorem indexStream_pack {w : Nat} {idx : List Byte} (hfull : idx.length = 256) :
    indexStream 8 (pack false w idx) = indexStream w idx :=
  indexStream_map_packGroup (by rw [indexStream_length, hfull]; omega)

/-- R175 as a number: the packed bytes and the indices are digits of one integer. -/
theorem ofDigits_pack {w : Nat} {idx : List Byte} (hfull : idx.length = 256) (hfit : ∀ b ∈ idx, b.toNat < 2 ^ w) :
    Nat.ofDigits 256 ((pack false w idx).map BitVec.toNat) = Nat.ofDigits (2 ^ w) (idx.map BitVec.toNat) := by
  have hbytes : ∀ b ∈ pack false w idx, b.toNat < 2 ^ 8 := fun b _ => b.isLt
  calc Nat.ofDigits (2 ^ 8) ((pack false w idx).map BitVec.toNat)
    _ = Nat.ofDigits 2 ((indexStream 8 (pack false w idx)).map Bool.toNat) := (ofDigits_indexStream hbytes).symm
    _ = Nat.ofDigits 2 ((indexStream w idx).map Bool.toNat) := by rw [indexStream_pack hfull]
    _ = Nat.ofDigits (2 ^ w) (idx.map BitVec.toNat) := ofDigits_indexStream hfit

/-- Settles O47: the bits of the packed bytes are the stream, and either way of reading it is the same integer. -/
theorem packedBytesAreOneInteger : Obligations.PackedBytesAreOneInteger := by
  refine fun w idx _ _ hfull hfit => ⟨fun p hp => ?_, ?_⟩
  · have hbyte : p / 8 < (pack false w idx).length := by rw [pack_length]; omega
    have hat : (pack false w idx)[p / 8]? = some (pack false w idx)[p / 8] := List.getElem?_eq_getElem hbyte
    have hbit := indexStream_getElem? (Nat.mod_lt p (by omega : 0 < 8)) (pack false w idx) (p / 8)
    rw [Nat.div_add_mod, indexStream_pack hfull, hat] at hbit
    exact ⟨_, hat, hbit⟩
  · rw [sum_zipIdx_eq_ofDigits, ofDigits_pack hfull hfit, ← sum_zipIdx_eq_ofDigits]
    simp only [← pow_mul, Nat.mul_comm w]

/-! ### The serial packer (R176) -/

/-- What `GR` holds of a byte after its first `j` bits: these bits, and 0 above them. -/
def lowBits (b : Byte) (j : Nat) : Byte := (b.setWidth j).setWidth 8

@[simp] theorem lowBits_zero (b : Byte) : lowBits b 0 = 0 := by
  rw [lowBits, BitVec.of_length_zero (x := b.setWidth 0)]
  rfl

@[simp] theorem lowBits_eight (b : Byte) : lowBits b 8 = b := by simp [lowBits]

theorem lowBits_getLsbD {i : Nat} (hi : i < 8) (b : Byte) (j : Nat) :
    (lowBits b j).getLsbD i = (decide (i < j) && b.getLsbD i) := by
  simp [lowBits, hi]

/-- `GR[t] <- bit` at bit `j` of the byte. -/
theorem lowBits_succ (b : Byte) (j : Nat) :
    lowBits b j ||| ((BitVec.ofBool (b.getLsbD j)).setWidth 8 <<< j) = lowBits b (j + 1) := by
  refine BitVec.eq_of_getLsbD_eq fun i hi => ?_
  rw [BitVec.getLsbD_or, lowBits_getLsbD hi, lowBits_getLsbD hi, BitVec.getLsbD_shiftLeft]
  rcases Nat.lt_trichotomy i j with hlt | rfl | hgt
  · simp [hlt, hlt.trans j.lt_succ_self]
  · simp [hi]
  · simp [hgt.not_gt, hgt, Nat.sub_ne_zero_of_lt hgt]

/-- R176: one bit into a group that it does not fill. -/
theorem packUnitStep_open {j : Nat} (hj : j < 7) (b : Byte) (out : List Byte) :
    packUnitStep ⟨lowBits b j, BitVec.ofNat 3 j, out⟩ (b.getLsbD j) =
      ⟨lowBits b (j + 1), BitVec.ofNat 3 (j + 1), out⟩ := by
  have hcount : (BitVec.ofNat 3 j).toNat = j := Nat.mod_eq_of_lt (hj.trans (by decide))
  have hopen : BitVec.ofNat 3 j ≠ 7 := fun h => hj.ne (hcount.symm.trans (congrArg BitVec.toNat h))
  simp only [packUnitStep, if_neg hopen, hcount, lowBits_succ, BitVec.ofNat_add]
  rfl

/-- R176: the bit that fills the group writes the byte and clears the group. -/
theorem packUnitStep_close (b : Byte) (out : List Byte) :
    packUnitStep ⟨lowBits b 7, 7, out⟩ (b.getLsbD 7) = ⟨0, 0, out ++ [b]⟩ := by
  have hbyte : lowBits b 7 ||| ((BitVec.ofBool (b.getLsbD 7)).setWidth 8 <<< (7 : BitVec 3).toNat) = b :=
    (lowBits_succ b 7).trans (lowBits_eight b)
  simp only [packUnitStep, if_pos, hbyte]

/-- The first bits of a byte, fewer than 8, stay in the group. -/
theorem packUnit_bits (b : Byte) (out : List Byte) : ∀ {j : Nat}, j < 8 →
    (indexBits j b).foldl packUnitStep ⟨0, 0, out⟩ = ⟨lowBits b j, BitVec.ofNat 3 j, out⟩
  | 0, _ => by rw [lowBits_zero]; rfl
  | j + 1, hj => by
    rw [indexBits_succ, List.foldl_concat, packUnit_bits b out (Nat.lt_of_succ_lt hj),
      packUnitStep_open (Nat.lt_of_succ_lt_succ hj)]

/-- The eight bits of a byte, fed to an empty group, write that byte and leave the group empty. -/
theorem packUnit_byte (b : Byte) (out : List Byte) :
    (indexBits 8 b).foldl packUnitStep ⟨0, 0, out⟩ = ⟨0, 0, out ++ [b]⟩ := by
  rw [indexBits_succ, List.foldl_concat, packUnit_bits b out (by decide)]
  exact packUnitStep_close b out

/-- The unit fed with the bits of bytes writes those bytes. -/
theorem packUnit_bytes (bytes out : List Byte) :
    (indexStream 8 bytes).foldl packUnitStep ⟨0, 0, out⟩ = ⟨0, 0, out ++ bytes⟩ := by
  induction bytes generalizing out with
  | nil => exact congrArg (PackUnit.mk 0 0) (List.append_nil out).symm
  | cons b bytes ih =>
    rw [indexStream_cons, List.foldl_append, packUnit_byte, ih, List.append_assoc, List.singleton_append]

/-- Settles O56: the stream is the bits of the packed bytes, which the unit writes one by one. -/
theorem serialPackerWritesThePack : Obligations.SerialPackerWritesThePack := by
  intro w idx _ _ hfull
  rw [packUnitRun, ← indexStream_pack hfull]
  exact packUnit_bytes (pack false w idx) []

end Sys2Proof.Machine
end

section
/-! PROOFS. The palette commands (spec 44 R166 to R179): the answer of each with `ERR` clear, and the way back from the
palette block to the pixels. -/

namespace Sys2Proof.Machine

/-! ### The answer of each command with `ERR` clear -/

/-- What a scan of these cells leaves of a state (R167). -/
def afterScan (s : State) (cells : List Color) : State :=
  { s with busy := false, pal := (scan cells).1, idx := (scan cells).2, bitw := 0, pkbuf := [] }

@[simp] theorem afterScan_pal (s : State) (cells : List Color) : (afterScan s cells).pal = (scan cells).1 := rfl
@[simp] theorem afterScan_idx (s : State) (cells : List Color) : (afterScan s cells).idx = (scan cells).2 := rfl

/-- R167 on the octets of 256 cells. -/
theorem exec_pxscan_of_cells {s : State} {cells : List Color} (herr : s.err = false)
    (hbuf : s.ibuf = cells.flatMap Color.bytes) (hcount : cells.length = 256) :
    exec .pxscan s = .next (afterScan s cells) := by
  have hfull : s.ilen = 3 * gridCells := by rw [State.ilen, hbuf, length_flatMap_bytes, hcount]; rfl
  change execPxscan s = _
  rw [execPxscan, if_pos hfull, hbuf, pixelCells_flatMap_bytes]
  exact command_ok _ herr

theorem exec_pxscan_of_not_full {s : State} (herr : s.err = false) (hlen : s.ilen ≠ 768) :
    exec .pxscan s = .next (faultState s 0x07 s.ilen) := by
  change execPxscan s = _
  rw [execPxscan, if_neg (show s.ilen ≠ 3 * gridCells from hlen)]
  exact command_error_eq_faultState .pixlen s.ilen herr

theorem exec_pxpack_of_scanned {s : State} (herr : s.err = false) (hscan : s.palsize ≠ 0) :
    exec .pxpack s = .next { storePack s with busy := false } := by
  change execPxpack s = _
  rw [execPxpack, if_neg hscan]
  exact command_ok _ herr

/-- R178 with its premises met: the block goes to the end of `IBUF`. -/
theorem exec_pxemit_of_room {s : State} (herr : s.err = false) (hpack : s.pklen ≠ 0)
    (hroom : s.ilen + (1 + 3 * s.palsize + s.pklen) ≤ s.cfg.ibufMax) :
    exec .pxemit s = .next { s with busy := false, ibuf := s.ibuf ++ paletteBlock s } := by
  change execPxemit s = _
  rw [execPxemit, if_neg hpack, if_neg hroom.not_gt, ibufAppend_eq]
  exact command_ok _ herr

/-- Settles O48, by whether there is a pack and whether the block has room. -/
theorem pxemitAppendsThePaletteBlock : Obligations.PxemitAppendsThePaletteBlock := by
  rintro s m herr rfl
  refine ⟨fun hnone => ?_, fun hpack hover => ?_, fun hpack hroom => ?_⟩
  · change execPxemit s = _
    rw [execPxemit, if_pos hnone]
    exact command_error_eq_faultState .nopack 0 herr
  · change execPxemit s = _
    rw [execPxemit, if_neg hpack, if_pos hover]
    exact command_error_eq_faultState .ifull _ herr
  · rw [exec_pxemit_of_room herr hpack hroom, List.append_assoc s.ibuf, List.append_assoc s.ibuf]
    rfl

/-! ### The scan (R166 to R168) -/

/-- R165: 768 octets are those of 256 cells. -/
theorem exists_cells_of_full {s : State} (hfull : s.ilen = 768) :
    ∃ cells : List Color, s.ibuf = cells.flatMap Color.bytes ∧ cells.length = 256 := by
  have hlen : s.ibuf.length = 768 := hfull
  have hback : (pixelCells s.ibuf).flatMap Color.bytes = s.ibuf := flatMap_bytes_pixelCells (by omega)
  have hcount := congrArg List.length hback
  rw [length_flatMap_bytes] at hcount
  exact ⟨pixelCells s.ibuf, hback.symm, by omega⟩

/-- Cell `i` is the three octets at `3i` (R165). -/
theorem memRead_pixel {s : State} {cells : List Color} (hbuf : s.ibuf = cells.flatMap Color.bytes) {i : Nat} {c : Color}
    (hc : cells[i]? = some c) : s.memRead .ibuf (3 * i) 3 = some c.bytes := by
  have hread := memRead_ibuf_color (before := []) (rest := []) (by simpa using hbuf) hc
  rwa [List.length_nil, Nat.zero_add] at hread

/-- Settles O45: `FirstSeen` has each clause for the 256 cells of a full buffer. -/
theorem pxscanBuildsFirstSeenPalette : Obligations.PxscanBuildsFirstSeenPalette := by
  refine fun s herr => ⟨exec_pxscan_of_not_full herr, fun hfull => ?_⟩
  obtain ⟨cells, hbuf, hcount⟩ := exists_cells_of_full hfull
  have hseen := firstSeen_scan cells
  refine ⟨(scan cells).1, (scan cells).2, exec_pxscan_of_cells herr hbuf hcount,
    hseen.palette_length_pos (by omega), hcount ▸ hseen.palette_length_le, hseen.nodup,
    hseen.idx_length.trans hcount, fun i hi => ?_, fun k => hseen.entry_used hcount.le, fun k hk => ?_⟩
  · have hc : cells[i]? = some cells[i] := List.getElem?_eq_getElem (by omega)
    obtain ⟨k, hk, hnum, hlook⟩ := hseen.lookup hcount.le hc
    exact ⟨k, cells[i], hk, hlook, hnum ▸ hseen.number_le hc, memRead_pixel hbuf hc⟩
  · rw [hseen.findIdx_number hcount.le (Nat.lt_of_succ_lt hk), hseen.findIdx_number hcount.le hk]
    exact List.pairwise_iff_getElem.mp hseen.order k (k + 1) _ hk k.lt_succ_self

/-- Settles O58: the grid's octets are those of its pixels in scan order, and the scan indexes every pixel. -/
theorem pxscanReadsTheGridRowByRow : Obligations.PxscanReadsTheGridRowByRow := by
  intro s getPixel herr hgrid
  rw [gridOctets_eq] at hgrid
  have hcount : (gridPixels getPixel).length = 256 := by simp [gridPixels]
  refine ⟨_, exec_pxscan_of_cells herr hgrid hcount, herr, fun i hi => ?_⟩
  have hc : (gridPixels getPixel)[i]? = some (getPixel (i % 16) (i / 16)) := by simp [gridPixels, hi]
  obtain ⟨k, hk, -, hlook⟩ := (firstSeen_scan (gridPixels getPixel)).lookup hcount.le hc
  rw [afterScan_idx, afterScan_pal]
  exact ⟨k, hk, hlook⟩

/-! ### Back from the block to the pixels (R179) -/

/-- R169: the count byte is the number of entries, 0 standing for 256. -/
theorem paletteCount_of_byte {p : Nat} (hpos : 0 < p) (hmax : p ≤ 256) :
    (if (BitVec.ofNat 8 (p % 256)).toNat = 0 then 256 else (BitVec.ofNat 8 (p % 256)).toNat) = p := by
  rw [BitVec.toNat_ofNat]
  split <;> omega

theorem ibufMax_ge {c : Config} (hwf : c.wellFormed = true) : 2048 ≤ c.ibufMax := by
  simp only [Config.wellFormed, Bool.and_eq_true, decide_eq_true_eq] at hwf
  obtain ⟨⟨-, hmin⟩, -⟩ := hwf
  exact hmin

/-- The palette block of this palette and index grid under D21 (R79, R178). -/
def encodedBlock (pal : List Color) (idx : List Byte) : List Byte :=
  [BitVec.ofNat 8 (pal.length % 256)] ++ pal.flatMap Color.bytes ++ pack false (bitw pal.length) idx

theorem encodedBlock_length (pal : List Color) (idx : List Byte) :
    (encodedBlock pal idx).length = 1 + 3 * pal.length + 32 * bitw pal.length := by
  simp only [encodedBlock, List.length_append, length_flatMap_bytes, pack_length, List.length_singleton]

theorem encodedBlock_drop (pal : List Color) (idx : List Byte) :
    (encodedBlock pal idx).drop (1 + 3 * pal.length) = pack false (bitw pal.length) idx :=
  List.drop_left' (by simp only [List.length_append, length_flatMap_bytes, List.length_singleton])

/-- A block that a pack under D21 leaves to be emitted is `encodedBlock`. -/
theorem paletteBlock_storePack {s : State} (hlsb : s.cfg.packMsbFirst = false) :
    paletteBlock (storePack s) = encodedBlock s.pal s.idx := by
  rw [paletteBlock, storePack_pkbuf, hlsb]
  rfl

theorem eq_of_exec {i : Instr} {s t u : State} (ht : exec i s = .next t) (hu : exec i s = .next u) : t = u := by
  injection ht.symm.trans hu

/-- R178: scan, pack, clear and emit on a full buffer do not fault, and leave the block alone in `IBUF`. The limit of
R9 leaves room for it. -/
theorem ibuf_after_encode {s t1 t2 t3 t4 : State} {cells : List Color} (herr : s.err = false)
    (hbuf : s.ibuf = cells.flatMap Color.bytes) (hcount : cells.length = 256) (hlsb : s.cfg.packMsbFirst = false)
    (hwf : s.cfg.wellFormed = true) (hscan : exec .pxscan s = .next t1) (hpack : exec .pxpack t1 = .next t2)
    (hclear : exec .iclr t2 = .next t3) (hemit : exec .pxemit t3 = .next t4) :
    t4.err = false ∧ t4.ibuf = encodedBlock (scan cells).1 (scan cells).2 := by
  have hpos := (firstSeen_scan cells).palette_length_pos (by omega)
  have hmax := (firstSeen_scan cells).palette_length_le
  have hwpos := bitw_pos (scan cells).1.length
  have hwmax := bitw_le (scan cells).1.length
  have hlimit := ibufMax_ge hwf
  have hpklen : (storePack (afterScan s cells)).pklen = 32 * bitw (scan cells).1.length := pack_length ..
  have hpacked : (storePack (afterScan s cells)).pklen ≠ 0 := by omega
  have hroom : 0 + (1 + 3 * (scan cells).1.length + (storePack (afterScan s cells)).pklen) ≤ s.cfg.ibufMax := by omega
  obtain rfl := eq_of_exec hscan (exec_pxscan_of_cells herr hbuf hcount)
  obtain rfl := eq_of_exec hpack (exec_pxpack_of_scanned herr hpos.ne')
  obtain rfl := eq_of_exec hclear (iclrEmptiesTheInputBuffer _ herr)
  obtain rfl := eq_of_exec hemit (exec_pxemit_of_room herr hpacked hroom)
  exact ⟨herr, paletteBlock_storePack hlsb⟩

/-- R171: an entry number fits the width. -/
theorem FirstSeen.index_fits {cells pal : List Color} {idx : List Byte} (h : FirstSeen cells pal idx)
    (hcells : cells.length ≤ 256) : ∀ b ∈ idx, b.toNat < 2 ^ bitw pal.length := by
  intro b hb
  have hnum : b.toNat ∈ cells.map fun c => pal.idxOf c := h.map_toNat hcells ▸ List.mem_map_of_mem hb
  obtain ⟨c, hc, hcb⟩ := List.mem_map.mp hnum
  calc b.toNat = pal.idxOf c := hcb.symm
    _ < pal.length := List.idxOf_lt_length_of_mem ((h.mem_iff c).mpr hc)
    _ ≤ 2 ^ bitw pal.length := le_two_pow_bitw (h.palette_length_le.trans hcells)

/-- R175: bits `i w` to `i w + w - 1` of the packed integer are the number of cell `i`'s colour. -/
theorem FirstSeen.packed_lookup {cells pal : List Color} {idx : List Byte} (h : FirstSeen cells pal idx)
    (hcells : cells.length = 256) {i : Nat} {c : Color} (hc : cells[i]? = some c) :
    Nat.ofDigits 256 ((pack false (bitw pal.length) idx).map BitVec.toNat) / 2 ^ (i * bitw pal.length) %
      2 ^ bitw pal.length = pal.idxOf c := by
  have hfit := h.index_fits hcells.le
  have hdigit : (idx.map BitVec.toNat)[i]? = some (pal.idxOf c) := by simp [h.map_toNat hcells.le, hc]
  rw [ofDigits_pack (h.idx_length.trans hcells) hfit, Nat.mul_comm, pow_mul]
  exact ofDigits_div_pow_mod (Nat.two_pow_pos _) (List.forall_mem_map.mpr hfit) hdigit

/-- Settles O49: the integer gives the number of a pixel's colour, and both reads give that colour's octets. -/
theorem pixelsRecoveredFromPaletteBlock : Obligations.PixelsRecoveredFromPaletteBlock := by
  intro s t1 t2 t3 t4 herr hfull hlsb hwf hscan hpack hclear hemit
  obtain ⟨cells, hbuf, hcount⟩ := exists_cells_of_full hfull
  obtain ⟨herr4, hblock⟩ := ibuf_after_encode herr hbuf hcount hlsb hwf hscan hpack hclear hemit
  have hseen := firstSeen_scan cells
  generalize (scan cells).1 = pal, (scan cells).2 = idx at hblock hseen
  have hp := (paletteCount_of_byte (hseen.palette_length_pos (by omega))
    (hcount ▸ hseen.palette_length_le)).symm
  refine ⟨herr4, _, pal.length, bitw pal.length, _, by rw [hblock]; rfl, hp, rfl,
    (congrArg List.length hblock).trans (encodedBlock_length pal idx), rfl, fun i hi => ?_⟩
  have hc : cells[i]? = some cells[i] := List.getElem?_eq_getElem (by omega)
  have hmem : cells[i] ∈ pal := (hseen.mem_iff _).mpr (List.getElem_mem _)
  refine ⟨pal.idxOf cells[i], ?_, List.idxOf_lt_length_of_mem hmem, ?_⟩
  · rw [hblock, encodedBlock_drop, sum_zipIdx_eq_ofDigits, hseen.packed_lookup hcount hc]
  · rw [memRead_pixel hbuf hc]
    exact memRead_ibuf_color hblock (List.getElem?_idxOf hmem)

end Sys2Proof.Machine
end

section
/-! PROOFS. The system commands (spec 45 R190, R191): what `NOP` and `ERRCLR` answer, under the error-stop or not. -/

namespace Sys2Proof.Machine

/-- R190: `NOP` is the operation that changes nothing. -/
theorem exec_nop (s : State) : exec .nop s = .next (complete s) := command_self s

/-- R191: the error-stop does not hold `ERRCLR` back. -/
theorem exec_errclr (s : State) : exec .errclr s = .next (complete (leaveError s)) := rfl

/-- Settles O25, for `CMD` by what the register map reads after reset (R37). -/
theorem nopChangesNothing : Obligations.NopChangesNothing :=
  ⟨exec_nop, readReg_reset 0, rfl⟩

/-- With `ERR` clear the invariants already hold the other two error fields at 0 (R38). -/
theorem leaveError_eq_self {s : State} (hinv : Inv s) (herr : s.err = false) : leaveError s = s := by
  have hcode : s.errcode = 0x00 := hinv.error_code.mp herr
  have hinfo : s.errinfo = 0 := hinv.error_info herr
  rw [leaveError, ← herr, ← hcode, ← hinfo]

/-- Settles O26: `ERRCLR` leaves the error state, and a state that meets the invariants with `ERR` clear is not in it. -/
theorem errclrClearsErrorFieldsOnly : Obligations.ErrclrClearsErrorFieldsOnly := by
  refine ⟨exec_errclr, fun s hinv herr => ?_⟩
  calc exec .errclr s = .next (complete (leaveError s)) := exec_errclr s
    _ = .next (complete s) := by rw [leaveError_eq_self hinv herr]

end Sys2Proof.Machine
end

section
/-! PROOFS. The error-stop (spec 60 R236): a command or an illegal word while `ERR = 1`, from the host's write of `CMD`
to the completion. -/

namespace Sys2Proof.Machine

/-- With nothing running, the step makes the first pending access. -/
theorem step_eq_hostAct {s : State} {ev : HostEvent} {rest : List HostEvent} (hidle : s.busy = false)
    (hqueue : s.hostQueue = ev :: rest) : step s = hostAct ev.op { s with hostQueue := rest } := by
  rcases step_cases s with ⟨hnone, -, -⟩ | ⟨hbusy, -, -⟩ | ⟨ev', rest', hq, -, hstep⟩
  · simp [hqueue] at hnone
  · simp [hidle] at hbusy
  · obtain ⟨rfl, rfl⟩ : ev = ev' ∧ rest = rest' := by simpa [hqueue] using hq
    exact hstep

/-- R25: the step that makes a write of `CMD` latches the word and starts the command. -/
theorem step_cmdWrite {s : State} {ov : Bool} {port : RegPort} {v : Word} {rest : List HostEvent}
    (hidle : s.busy = false) (hport : portRegister s.cfg port = some 0)
    (hqueue : s.hostQueue = ⟨ov, .write port v⟩ :: rest) :
    step s = .next { s with cmd := v.setWidth 16, busy := true, hostQueue := rest } := by
  rw [step_eq_hostAct hidle hqueue]
  simp [hostAct, hostWrite, hport, hidle]

/-- R236: under the error-stop every command but the two that leave it only completes. -/
theorem exec_of_err {i : Instr} {s : State} (herr : s.err = true) (herrclr : i ≠ .errclr) (hsrst : i ≠ .srst) :
    exec i s = .next (complete s) := by
  obtain ⟨t, hexec, hdid⟩ := exec_did i s
  rw [hexec]
  cases hdid with
  | ignored => rfl
  | errclr => exact absurd rfl herrclr
  | srst => exact absurd rfl hsrst
  | raised _ _ hok | wrote _ _ hok => simp [herr] at hok

/-- R236 for the latched word: legal or not, it only completes unless it is the word of `ERRCLR` or `SRST`. -/
theorem runLatched_of_err {s : State} (herr : s.err = true) (herrclr : s.cmd ≠ encode .errclr)
    (hsrst : s.cmd ≠ encode .srst) : runLatched s = .next (complete s) := by
  unfold runLatched
  cases hdecode : decode s.cmd with
  | error => exact command_of_err _ herr
  | ok i =>
    have hword : encode i = s.cmd := encode_of_decode hdecode
    refine exec_of_err herr ?_ ?_ <;> rintro rfl
    · exact herrclr hword.symm
    · exact hsrst hword.symm

/-- Settles O7: the first step is the write of `CMD`, the second runs the latched word, which `ERR` makes void. -/
theorem errorStopIgnoresWrittenWords : Obligations.ErrorStopIgnoresWrittenWords := by
  intro s ov port v rest herr hidle hport hqueue hfree herrclr hsrst
  refine ⟨_, step_cmdWrite hidle hport hqueue, rfl, ?_⟩
  calc step { s with cmd := v.setWidth 16, busy := true, hostQueue := rest }
    _ = runLatched _ := step_eq_runLatched rfl hfree
    _ = .next (complete _) := runLatched_of_err herr herrclr hsrst
    _ = .next { s with cmd := v.setWidth 16, hostQueue := rest } := by rw [complete, ← hidle]

end Sys2Proof.Machine
end

section
/-! PROOFS. The two resets (spec 70 R261, R262): `SRST` and the reset input give the reset state, apart from `CMD` after
`SRST` and from what belongs to the build and to the outside world. -/

namespace Sys2Proof.Machine

/-- R192, R262: neither the error-stop nor anything computed before holds `SRST` back. -/
theorem exec_srst (s : State) : exec .srst s = .next
    { State.reset with
      cmd := s.cmd, cfg := s.cfg, hostQueue := s.hostQueue, readData := s.readData, freeReads := s.freeReads } := rfl

/-- R260: the reset input leaves nothing of the state but what is the build's and the outside world's. -/
theorem resetInput_eq (s : State) : resetInput s =
    { State.reset with
      cfg := s.cfg, hostQueue := s.hostQueue, readData := s.readData, freeReads := s.freeReads } := rfl

/-- The step makes the first pending access when nothing runs or when the access does not wait. -/
theorem step_eq_hostAct_of_turn {s : State} {ev : HostEvent} {rest : List HostEvent}
    (hqueue : s.hostQueue = ev :: rest) (hturn : s.busy = false ∨ ev.overlap = true) :
    step s = hostAct ev.op { s with hostQueue := rest } := by
  rcases hturn with hidle | hoverlap
  · exact step_eq_hostAct hidle hqueue
  · rcases step_cases s with ⟨hnone, -, -⟩ | ⟨-, hfree, -⟩ | ⟨ev', rest', hq, -, hstep⟩
    · simp [hqueue] at hnone
    · have hwaits : ev.overlap = false := hfree ev (by simp [hqueue])
      simp [hoverlap] at hwaits
    · obtain ⟨rfl, rfl⟩ : ev = ev' ∧ rest = rest' := by simpa [hqueue] using hq
      exact hstep

/-- Settles O16: `CMD` keeps the latched word, so register 0 reads the word of `SRST`. -/
theorem softResetGivesResetState : Obligations.SoftResetGivesResetState := by
  refine fun s => ⟨exec_srst s, fun hword t hexec => ?_⟩
  have ht : t = _ := eq_of_exec hexec (exec_srst s)
  calc readReg t 0 = s.cmd.setWidth 32 := by rw [ht]; rfl
    _ = 0x0200 := by rw [hword]; rfl

/-- Settles O17: the reset is made before the running command completes, and keeps nothing of what that had done. -/
theorem resetAbandonsRunningCommand : Obligations.ResetAbandonsRunningCommand := by
  intro s ov rest hqueue hturn
  calc step s = hostAct .reset { s with hostQueue := rest } := step_eq_hostAct_of_turn hqueue hturn
    _ = .next (resetInput { s with hostQueue := rest }) := rfl
    _ = .next _ := by rw [resetInput_eq]

end Sys2Proof.Machine
end

section
/-! PROOFS. The decoder against the encoder and the map (spec 30_encoding.md R74 to R78): the command of an encoded
word, and the words that a row of the map selects. -/

namespace Sys2Proof

@[simp] theorem opOf_commandWord (op arg : Byte) : opOf (commandWord op arg) = op :=
  BitVec.extractLsb'_append_eq_left

@[simp] theorem argOf_commandWord (op arg : Byte) : argOf (commandWord op arg) = arg :=
  BitVec.extractLsb'_append_eq_right

/-- R74 to R76: the two commands with an operand carry it in `arg`, the other words are fixed. -/
theorem decode_encode (i : Instr) : decode (encode i) = .ok i := by
  cases i with
  | ipush imm8 => rw [decode, encode, opOf_commandWord, argOf_commandWord]; rfl
  | crcadd imm8 => rw [decode, encode, opOf_commandWord, argOf_commandWord]; rfl
  | _ => rfl

/-- Settles O2: `decode_encode`, which needs no well-formedness because every operand byte is legal. -/
theorem decodeOfEncodeGivesTheCommand : Obligations.DecodeOfEncodeGivesTheCommand :=
  fun i _ => decode_encode i

/-- Settles O3, by the operation byte that the decoder branches on. -/
theorem encodeOfDecodeGivesTheWord : Obligations.EncodeOfDecodeGivesTheWord :=
  fun _ _ => encode_of_decode

/-- Settles O1: each of these words is the encoding of its command. -/
theorem opcodeMapWordsDecode : Obligations.OpcodeMapWordsDecode :=
  ⟨decode_encode .nop, decode_encode .errclr, decode_encode .srst, decode_encode .iclr, decode_encode (.ipush 0xA5),
    decode_encode .ih2b, decode_encode .crcclr, decode_encode (.crcadd 0xFF), decode_encode .crchex,
    decode_encode .crcraw, decode_encode .bldrH, decode_encode .bldaH, decode_encode .bldrR, decode_encode .bldaR,
    decode_encode .lclr, decode_encode .pxscan, decode_encode .pxpack, decode_encode .pxemit⟩

/-- A row that fixes all 16 bits selects the one word it names (R76). -/
theorem matchBits_of_selects {r : OpcodeRow} {w : Half} (hsel : r.selects w = true) (hmask : r.mask = 0xFFFF) :
    r.matchBits = w := by
  have hfixed : w &&& r.mask = r.matchBits := beq_iff_eq.mp hsel
  rw [← hfixed, hmask]
  exact BitVec.and_allOnes

/-- A row that fixes the high byte selects words of one operation byte (R75 (a)). -/
theorem opOf_of_selects {r : OpcodeRow} {w : Half} {op : Byte} (hsel : r.selects w = true) (hmask : r.mask = 0xFF00)
    (hmatch : r.matchBits = commandWord op 0x00) : (opOf w).toNat = op.toNat := by
  have hfixed : w &&& r.mask = r.matchBits := beq_iff_eq.mp hsel
  rw [hmask, hmatch] at hfixed
  have hop : opOf (w &&& 0xFF00) = op := by rw [hfixed, opOf_commandWord]
  rw [← hop, opOf, opOf, BitVec.extractLsb'_and]
  exact congrArg BitVec.toNat BitVec.and_allOnes.symm

/-- R75, R76: the row of a command without an operand fixes the whole word; two commands have an operand. -/
theorem opcodeRow_fixed_or_operand (i : Instr) :
    ((opcodeRow i).mask = 0xFFFF ∧ (opcodeRow i).matchBits = encode i) ∨
      (∃ imm8, i = .ipush imm8) ∨ ∃ imm8, i = .crcadd imm8 := by
  cases i with
  | ipush imm8 => exact .inr (.inl ⟨imm8, rfl⟩)
  | crcadd imm8 => exact .inr (.inr ⟨imm8, rfl⟩)
  | _ => exact .inl ⟨rfl, rfl⟩

/-- R76: a word that the row of a command selects is the word of a command. -/
theorem exists_encode_of_selects {i : Instr} {w : Half} (hsel : (opcodeRow i).selects w = true) :
    ∃ j, encode j = w := by
  rcases opcodeRow_fixed_or_operand i with ⟨hmask, hmatch⟩ | ⟨imm8, rfl⟩ | ⟨imm8, rfl⟩
  · exact ⟨i, hmatch ▸ matchBits_of_selects hsel hmask⟩
  · exact ⟨.ipush (argOf w), commandWord_argOf 0x11 (opOf_of_selects hsel rfl rfl)⟩
  · exact ⟨.crcadd (argOf w), commandWord_argOf 0x21 (opOf_of_selects hsel rfl rfl)⟩

/-- R76: the map has no row that is not some command's. -/
theorem exists_opcodeRow_of_mem {r : OpcodeRow} (hr : r ∈ opcodeTable) : ∃ i, r = opcodeRow i := by
  simp only [opcodeTable, List.mem_append, List.mem_cons, List.not_mem_nil, or_false] at hr
  rcases hr with (((((rfl | rfl | rfl) | rfl | rfl | rfl) | rfl | rfl | rfl | rfl) | rfl | rfl | rfl | rfl) |
    rfl | rfl | rfl | rfl) <;> exact ⟨_, rfl⟩

/-- R76: a word that a row of the map selects is a command's, and the row is that command's. -/
theorem selected_word {r : OpcodeRow} {w : Half} (hr : r ∈ opcodeTable) (hsel : r.selects w = true) :
    ∃ i, encode i = w ∧ r = opcodeRow i := by
  obtain ⟨i, rfl⟩ := exists_opcodeRow_of_mem hr
  obtain ⟨j, rfl⟩ := exists_encode_of_selects hsel
  have hown : opcodeRow i ∈ opcodeTable.filter fun q => q.selects (encode j) := List.mem_filter.mpr ⟨hr, hsel⟩
  rw [Laws.OwnRow.all j] at hown
  exact ⟨j, rfl, List.mem_singleton.mp hown⟩

/-- Settles O4: a selected word is an encoding, which decodes, and the only row that selects it is its command's. -/
theorem decodeAcceptsExactlyTheMapRows : Obligations.DecodeAcceptsExactlyTheMapRows := by
  refine fun w => ⟨⟨fun ⟨i, hi⟩ => ?accepted, fun ⟨r, hr, hsel⟩ => ?selected⟩, fun r hr q hq hrsel hqsel => ?same⟩
  case accepted =>
    obtain ⟨hmem, hsel⟩ := Laws.opcodeRow_selects_encode i
    exact ⟨opcodeRow i, hmem, encode_of_decode hi ▸ hsel⟩
  case selected =>
    obtain ⟨i, rfl, -⟩ := selected_word hr hsel
    exact ⟨i, decode_encode i⟩
  case same =>
    obtain ⟨i, rfl, rfl⟩ := selected_word hr hrsel
    obtain ⟨j, hword, rfl⟩ := selected_word hq hqsel
    have hdecode : decode (encode i) = .ok j := hword ▸ decode_encode j
    cases (decode_encode i).symm.trans hdecode
    rfl

end Sys2Proof
end

section
/-! PROOFS. What a step that answers has done (spec 20 R56 to R58), said once as `Moved`, and the whole-machine rules
read off it: what every command keeps (R56, R263), what changes an idle machine (R57), the two stops (U1, U6). -/

namespace Sys2Proof.Machine

/-! ### What a command leaves to the outside world -/

/-- The latched word, the parameters and what is pending outside are as they were. -/
structure KeepsOutside (s t : State) : Prop where
  cmd : t.cmd = s.cmd
  cfg : t.cfg = s.cfg
  hostQueue : t.hostQueue = s.hostQueue
  readData : t.readData = s.readData
  freeReads : t.freeReads = s.freeReads

theorem Wrote.keepsOutside {s u : State} {i : Instr} (w : Wrote s i u) : KeepsOutside s u := by
  cases w <;> exact ⟨rfl, rfl, rfl, rfl, rfl⟩

/-- R56: no command writes what belongs outside, whether it is performed, void or faults. -/
theorem Did.keepsOutside {s t : State} {i : Instr} (did : Did s i t) : KeepsOutside s t := by
  cases did with
  | wrote _ u _ w => exact ⟨w.keepsOutside.cmd, w.keepsOutside.cfg, w.keepsOutside.hostQueue, w.keepsOutside.readData,
      w.keepsOutside.freeReads⟩
  | _ => exact ⟨rfl, rfl, rfl, rfl, rfl⟩

theorem Did.busy {s t : State} {i : Instr} (did : Did s i t) : t.busy = false := by
  cases did <;> rfl

/-- A command that is performed and does not fault leaves the error fields alone. -/
theorem Wrote.err {s u : State} {i : Instr} (w : Wrote s i u) : u.err = s.err := by
  cases w <;> rfl

/-- Settles O13, by the inversion of `exec`. -/
theorem everyCommandCompletes : Obligations.EveryCommandCompletes := by
  intro i s
  obtain ⟨t, hexec, hdid⟩ := exec_did i s
  obtain ⟨hcmd, hcfg, hqueue, hread, hfree⟩ := hdid.keepsOutside
  exact ⟨t, hexec, hdid.busy, hcmd, hcfg, hqueue, hread, hfree⟩

/-! ### What a step that answers has done -/

/-- Everything an access that answers can have done. -/
inductive Accessed (s : State) : HostOp → State → Prop
  | reset : Accessed s .reset (resetInput s)
  | read (port : RegPort) (k : Nat) (reg : portRegister s.cfg port = some k) : Accessed s (.read port) (hostRead k s)
  | start (port : RegPort) (v : Word) (reg : portRegister s.cfg port = some 0) (free : s.busy = false) :
      Accessed s (.write port v) { s with cmd := v.setWidth 16, busy := true }
  | wsel (port : RegPort) (v : Word) (reg : portRegister s.cfg port = some 11) :
      Accessed s (.write port v) { s with wsel := v.setWidth 3 }
  | wchunk (port : RegPort) (v : Word) (reg : portRegister s.cfg port = some 12) :
      Accessed s (.write port v) { s with wchunk := v }
  | waddr (port : RegPort) (v : Word) (reg : portRegister s.cfg port = some 13) :
      Accessed s (.write port v) { s with waddr := v }
  | ignored (port : RegPort) (v : Word) (k : Nat) (reg : portRegister s.cfg port = some k)
      (other : k ≠ 0 ∧ k ≠ 11 ∧ k ≠ 12 ∧ k ≠ 13) : Accessed s (.write port v) s

theorem accessed_of_hostAct {s t : State} {op : HostOp} (h : hostAct op s = .next t) : Accessed s op t := by
  rcases hostAct_cases op s with ⟨rfl, he⟩ | ⟨-, he⟩ | ⟨port, v, k, rfl, hreg, he⟩ | ⟨port, k, rfl, hreg, he⟩ <;>
    rw [he] at h
  · cases h; exact .reset
  · cases h
  · rcases hostWrite_cases k v s with ⟨-, -, hw⟩ | ⟨rfl, hfree, hw⟩ | ⟨rfl, hw⟩ | ⟨rfl, hw⟩ | ⟨rfl, hw⟩ |
      ⟨hcmd, hwsel, hwchunk, hwaddr, hw⟩ <;> rw [hw] at h <;> cases h
    · exact .start port v hreg hfree
    · exact .wsel port v hreg
    · exact .wchunk port v hreg
    · exact .waddr port v hreg
    · exact .ignored port v k hreg ⟨hcmd, hwsel, hwchunk, hwaddr⟩
  · cases h; exact .read port k hreg

/-- Everything a step that answers can have done: nothing with nothing to do, the latched command, the void or the
fault of an illegal word (R78, R236), or the first pending access. -/
inductive Moved (s : State) : State → Prop
  | idle (queue : s.hostQueue = []) (free : s.busy = false) : Moved s s
  | ran (i : Instr) (t : State) (run : s.busy = true) (undisturbed : CommandUndisturbed s)
      (word : decode s.cmd = .ok i) (did : Did s i t) : Moved s t
  | illegalIgnored (e : Reject) (run : s.busy = true) (undisturbed : CommandUndisturbed s)
      (word : decode s.cmd = .error e) (stop : s.err = true) : Moved s (complete s)
  | illegalRaised (e : Reject) (run : s.busy = true) (undisturbed : CommandUndisturbed s)
      (word : decode s.cmd = .error e) (ok : s.err = false) :
      Moved s (complete (raiseFault (.illcmd, s.cmd.toNat) s))
  | access (ev : HostEvent) (rest : List HostEvent) (t : State) (queue : s.hostQueue = ev :: rest)
      (turn : s.busy = false ∨ ev.overlap = true) (acc : Accessed { s with hostQueue := rest } ev.op t) : Moved s t

/-- The running engine always answers a next state (R56). -/
theorem runLatched_moved {s : State} (hbusy : s.busy = true) (hfree : CommandUndisturbed s) :
    ∃ t, runLatched s = .next t ∧ Moved s t := by
  unfold runLatched
  cases hword : decode s.cmd with
  | ok i =>
    obtain ⟨t, hexec, hdid⟩ := exec_did i s
    exact ⟨t, hexec, .ran i t hbusy hfree hword hdid⟩
  | error e =>
    rcases illegalCommand_cases s with ⟨hstop, he⟩ | ⟨hok, he⟩
    · exact ⟨_, he, .illegalIgnored e hbusy hfree hword hstop⟩
    · exact ⟨_, he, .illegalRaised e hbusy hfree hword hok⟩

theorem moved_of_step {s t : State} (h : step s = .next t) : Moved s t := by
  rcases step_cases s with ⟨hnone, hidle, he⟩ | ⟨hbusy, hfree, he⟩ | ⟨ev, rest, hqueue, hturn, he⟩ <;> rw [he] at h
  · cases h; exact .idle hnone hidle
  · obtain ⟨u, hrun, hmoved⟩ := runLatched_moved hbusy hfree
    rw [hrun] at h
    cases h
    exact hmoved
  · exact .access ev rest t hqueue hturn (accessed_of_hostAct h)

theorem Accessed.cfg {s t : State} {op : HostOp} (acc : Accessed s op t) : t.cfg = s.cfg := by
  cases acc <;> rfl

theorem Accessed.hostQueue {s t : State} {op : HostOp} (acc : Accessed s op t) : t.hostQueue = s.hostQueue := by
  cases acc <;> rfl

theorem Moved.cfg {s t : State} (m : Moved s t) : t.cfg = s.cfg := by
  cases m with
  | ran _ _ _ _ _ did => exact did.keepsOutside.cfg
  | access _ _ _ _ _ acc => exact acc.cfg
  | _ => rfl

/-- A step takes at most the first access off the queue. -/
theorem Moved.hostQueue_suffix {s t : State} (m : Moved s t) : t.hostQueue <:+ s.hostQueue := by
  cases m with
  | ran _ _ _ _ _ did => exact did.keepsOutside.hostQueue ▸ List.suffix_refl _
  | access ev _ _ queue _ acc => exact queue ▸ acc.hostQueue ▸ List.suffix_cons ev _
  | _ => exact List.suffix_refl _

/-- Settles O14, by each thing a step can do. -/
theorem parametersNeverChange : Obligations.ParametersNeverChange :=
  fun _ _ h => (moved_of_step h).cfg

/-- Settles O10: an idle step that is not one of these accesses does nothing, reads, or ignores a write. -/
theorem idleStateChangesOnlyByHostWrite : Obligations.IdleStateChangesOnlyByHostWrite := by
  intro s t hidle hstep hchange
  cases moved_of_step hstep with
  | idle => exact absurd rfl hchange
  | ran _ _ run | illegalIgnored _ run | illegalRaised _ run => simp [hidle] at run
  | access ev rest _ queue _ acc =>
    refine ⟨ev, rest, queue, ?_⟩
    obtain ⟨ov, op⟩ := ev
    cases acc with
    | reset => exact .inl rfl
    | start port v reg => exact .inr ⟨port, v, 0, rfl, reg, .inl rfl⟩
    | wsel port v reg => exact .inr ⟨port, v, 11, rfl, reg, .inr (.inl rfl)⟩
    | wchunk port v reg => exact .inr ⟨port, v, 12, rfl, reg, .inr (.inr (.inl rfl))⟩
    | waddr port v reg => exact .inr ⟨port, v, 13, rfl, reg, .inr (.inr (.inr rfl))⟩
    | read | ignored => exact absurd rfl hchange

/-! ### The two stops (U1, U6) -/

theorem hostAct_eq_fault {s : State} {op : HostOp} {f : Fault} (h : hostAct op s = .fault f) :
    f = .cmdWriteWhileBusy ∧ s.busy = true ∧ ∃ port v, op = .write port v ∧ portRegister s.cfg port = some 0 := by
  rcases hostAct_cases op s with ⟨-, he⟩ | ⟨-, he⟩ | ⟨port, v, k, rfl, hreg, he⟩ | ⟨-, k, -, -, he⟩ <;> rw [he] at h
  case inr.inr.inl =>
    rcases hostWrite_cases k v s with ⟨rfl, hbusy, hw⟩ | ⟨-, -, hw⟩ | ⟨-, hw⟩ | ⟨-, hw⟩ | ⟨-, hw⟩ | ⟨-, -, -, -, hw⟩ <;>
      rw [hw] at h <;> cases h
    exact ⟨rfl, hbusy, port, v, rfl, hreg⟩
  all_goals cases h

theorem hostAct_eq_refused {s : State} {op : HostOp} {r : Refusal} (h : hostAct op s = .refused r) :
    r = .noRegisterAtAddress ∧ op.namesRegister s.cfg = false := by
  rcases hostAct_cases op s with ⟨-, he⟩ | ⟨hname, he⟩ | ⟨-, v, k, -, -, he⟩ | ⟨-, k, -, -, he⟩ <;> rw [he] at h
  case inr.inl => cases h; exact ⟨rfl, hname⟩
  case inr.inr.inl =>
    rcases hostWrite_cases k v s with ⟨-, -, hw⟩ | ⟨-, -, hw⟩ | ⟨-, hw⟩ | ⟨-, hw⟩ | ⟨-, hw⟩ | ⟨-, -, -, -, hw⟩ <;>
      rw [hw] at h <;> cases h
  all_goals cases h

/-- A step that does not answer is a pending access that does not. -/
theorem hostAct_of_stop {s : State} (h : ∀ t, step s ≠ .next t) :
    ∃ ev rest, s.hostQueue = ev :: rest ∧ (s.busy = false ∨ ev.overlap = true) ∧
      step s = hostAct ev.op { s with hostQueue := rest } := by
  rcases step_cases s with ⟨-, -, he⟩ | ⟨hbusy, hfree, he⟩ | haccess
  · exact absurd he (h s)
  · obtain ⟨t, hrun, -⟩ := runLatched_moved hbusy hfree
    exact absurd (he.trans hrun) (h t)
  · exact haccess

/-- Settles O11: the engine always answers, so a stop is an access that does not. -/
theorem onlyUndefinedAccessesStop : Obligations.OnlyUndefinedAccessesStop := by
  refine ⟨fun s f hstop => ?fault, fun s r hstop => ?refused⟩
  case fault =>
    obtain ⟨⟨ov, op⟩, rest, hqueue, hturn, he⟩ := hostAct_of_stop (s := s) (by simp [hstop])
    obtain ⟨rfl, hbusy, port, v, rfl, hreg⟩ := hostAct_eq_fault (he.symm.trans hstop)
    obtain rfl : ov = true := hturn.resolve_left (by simpa using hbusy)
    exact ⟨rfl, hbusy, port, v, rest, hqueue, hreg⟩
  case refused =>
    obtain ⟨ev, rest, hqueue, -, he⟩ := hostAct_of_stop (s := s) (by simp [hstop])
    obtain ⟨rfl, hname⟩ := hostAct_eq_refused (he.symm.trans hstop)
    exact ⟨rfl, ev, rest, hqueue, hname⟩

/-! ### A host that waits (R264) -/

theorem Moved.hostWaits {s t : State} (m : Moved s t) (hwaits : HostWaits s) : HostWaits t := fun ev hev =>
  m.cfg ▸ hwaits ev (m.hostQueue_suffix.subset hev)

/-- Neither stop is open to a host that waits. -/
theorem HostWaits.step_answers {s : State} (hwaits : HostWaits s) : ∃ t, step s = .next t := by
  cases hstep : step s with
  | next t => exact ⟨t, rfl⟩
  | fault f =>
    obtain ⟨-, -, port, v, rest, hqueue, -⟩ := onlyUndefinedAccessesStop.1 s f hstep
    obtain ⟨hoverlap, -⟩ := hwaits ⟨true, .write port v⟩ (by simp [hqueue])
    cases hoverlap
  | refused r =>
    obtain ⟨-, ev, rest, hqueue, hname⟩ := onlyUndefinedAccessesStop.2 s r hstep
    obtain ⟨-, hnames⟩ := hwaits ev (by simp [hqueue])
    simp [hname] at hnames

/-- A run goes on from what its first step answers. -/
theorem run_succ_of_step {M : Host.Core} {s t : M.State} (h : M.step s = .next t) (n : Nat) :
    M.run (n + 1) s = M.run n t := by rw [Host.Core.run, h]

/-- Settles O12, by induction on the length of the run: a step answers, and the host still waits. -/
theorem waitingHostNeverStops : Obligations.WaitingHostNeverStops := by
  intro s n hwaits
  induction n generalizing s with
  | zero => exact ⟨s, rfl⟩
  | succ n ih =>
    obtain ⟨t, hstep⟩ := hwaits.step_answers
    obtain ⟨u, hrun⟩ := ih t ((moved_of_step hstep).hostWaits hwaits)
    exact ⟨u, (run_succ_of_step (M := Sys2Proof.core) hstep n).trans hrun⟩

end Sys2Proof.Machine
end

section
/-! PROOFS. The invariants of spec 10 R38: each part for the writes that concern it, then for every command, every
access and every step. -/

namespace Sys2Proof.Machine

/-! ### The list (R38 items 2 and 3) -/

theorem listHolds_zero (c : Config) : listHolds c 0 = true := by
  unfold listHolds
  split <;> simp

theorem FrameList.nil : FrameList [] := ⟨[], nofun, rfl⟩

/-- One more frame's chunks after those of others. -/
theorem FrameList.concat {old : List (List Byte)} {content : List Byte} (h : FrameList old) (hpos : 1 ≤ content.length)
    (hmax : content.length ≤ 65533) : FrameList (old ++ chunks (frame content)) := by
  obtain ⟨contents, hsizes, rfl⟩ := h
  refine ⟨contents ++ [content], List.forall_mem_append.mpr ⟨hsizes, by simpa using ⟨hpos, hmax⟩⟩, ?_⟩
  rw [List.flatMap_append, List.flatMap_singleton]

/-- A frame placed after no chunks, or after those of the list, keeps the invariants. -/
theorem Inv.storeFrame {s : State} (h : Inv s) {old : List (List Byte)} {content : List Byte}
    (hold : old = [] ∨ old = s.oml) (hpos : 1 ≤ content.length) (hmax : content.length ≤ s.cfg.contentMax)
    (hroom : listHolds s.cfg (old.length + (chunks (frame content)).length) = true) :
    Inv (storeFrame s old content) := by
  have hframes : FrameList old := by
    rcases hold with rfl | rfl
    · exact .nil
    · exact h.list_frames
  have hsizes : ∀ ch ∈ old, 1 ≤ ch.length ∧ ch.length ≤ 666 := by
    rcases hold with rfl | rfl
    · nofun
    · exact h.chunk_sizes
  exact { h with
    list_fits := by rw [State.ocnt, storeFrame_oml, List.length_append]; exact hroom
    chunk_sizes := List.forall_mem_append.mpr ⟨hsizes, fun _ => length_of_mem_chunks⟩
    list_frames := hframes.concat hpos (hmax.trans (contentMax_le h.parameters)) }

/-! ### The scan and the pack (R38 items 4 and 5) -/

/-- R168: every index is an entry's number. -/
theorem FirstSeen.index_lt {cells pal : List Color} {idx : List Byte} (h : FirstSeen cells pal idx)
    (hcells : cells.length ≤ 256) : ∀ b ∈ idx, b.toNat < pal.length := by
  intro b hb
  have hnum : b.toNat ∈ cells.map fun c => pal.idxOf c := h.map_toNat hcells ▸ List.mem_map_of_mem hb
  obtain ⟨c, hc, hcb⟩ := List.mem_map.mp hnum
  exact hcb ▸ List.idxOf_lt_length_of_mem ((h.mem_iff c).mpr hc)

/-- R168: a full buffer's scan has a palette of 1 to 256 entries and a grid that uses exactly them. -/
theorem scanValid_storeScan {s : State} (hfull : s.ilen = 3 * gridCells) :
    ScanValid (storeScan s (scan (pixelCells s.ibuf))) := by
  obtain ⟨cells, hbuf, hcount⟩ := exists_cells_of_full hfull
  have hseen := firstSeen_scan cells
  rw [hbuf, pixelCells_flatMap_bytes]
  exact .inr ⟨hseen.palette_length_pos (by omega), hcount ▸ hseen.palette_length_le, hseen.nodup,
    hseen.idx_length.trans hcount, hseen.index_lt hcount.le, fun _ => hseen.entry_used hcount.le⟩

theorem ScanValid.palsize_le {s : State} (h : ScanValid s) : s.palsize ≤ 256 := by
  rcases h with ⟨hpal, -⟩ | ⟨-, hmax, -⟩
  · simp [State.palsize, hpal]
  · exact hmax

theorem bitw_ofNat_toNat (p : Nat) : (BitVec.ofNat 4 (bitw p)).toNat = bitw p :=
  Nat.mod_eq_of_lt ((bitw_le p).trans_lt (by decide))

/-- R170: the width stored is enough for the palette, and each of its bits fills 32 bytes. -/
theorem packValid_storePack {s : State} (hscan : s.palsize ≠ 0) (hmax : s.palsize ≤ 256) : PackValid (storePack s) := by
  refine .inr ?_
  rw [storePack_bitw, bitw_ofNat_toNat, State.pklen, storePack_pkbuf, pack_length]
  exact ⟨bitw_pos _, bitw_le _, rfl, Nat.pos_of_ne_zero hscan, le_two_pow_bitw hmax⟩

theorem paletteBlock_length (s : State) : (paletteBlock s).length = 1 + 3 * s.palsize + s.pklen := by
  rw [paletteBlock, State.bytes, List.length_append, List.length_append, length_flatMap_bytes]
  rfl

/-! ### Error state and resets (R26, R37) -/

/-- R231: the codes are 0x01 to 0x09. -/
theorem ErrCode.code_bounds (c : ErrCode) : 1 ≤ c.code.toNat ∧ c.code.toNat ≤ 9 := by
  cases c <;> decide

theorem Inv.raiseFault {s : State} (h : Inv s) (r : Raise) : Inv (raiseFault r s) :=
  { h with
    error_code := iff_of_false nofun fun hzero => by
      have hpos := r.1.code_bounds.1
      rw [raiseFault_errcode] at hzero
      simp [hzero] at hpos
    error_info := nofun }

theorem Inv.complete {s : State} (h : Inv s) : Inv (complete s) := { h with }

/-- Cleared buffers and error fields meet the invariants at any legal parameters. -/
theorem inv_clearAll {s : State} (hcfg : s.cfg.wellFormed = true) : Inv (clearAll s) where
  parameters := hcfg
  input_fits := Nat.zero_le _
  list_fits := listHolds_zero _
  chunk_sizes := nofun
  list_frames := .nil
  scan_valid := .inl ⟨rfl, rfl⟩
  pack_valid := .inl ⟨rfl, rfl⟩
  error_code := iff_of_true rfl rfl
  error_info _ := rfl

theorem inv_resetInput {s : State} (hcfg : s.cfg.wellFormed = true) : Inv (resetInput s) :=
  { inv_clearAll hcfg with }

/-- Settles O52: the reset state is what the reset input gives at the standard parameters, which are legal. -/
theorem invariantsHoldAtReset : Obligations.InvariantsHoldAtReset :=
  inv_resetInput (s := State.reset) (by decide)

/-! ### Every step (R38) -/

/-- The writes of every command keep the invariants. -/
theorem Wrote.inv {s u : State} {i : Instr} (w : Wrote s i u) (h : Inv s) : Inv u := by
  cases w with
  | nop | emptyBuild => exact h
  | crcclr | crcadd | crchex | crcraw => exact { h with }
  | iclr => exact { h with input_fits := Nat.zero_le _ }
  | ipush b room =>
    have hfits : s.ilen < s.cfg.ibufMax := lt_of_le_of_ne h.input_fits room
    have hlen : (s.ibuf ++ [b]).length = s.ilen + 1 := List.length_append ..
    exact { h with input_fits := hlen.trans_le hfits }
  | ih2b content hex =>
    have hlen : s.ilen = 2 * content.length := hex2b_length hex
    have hfits : content.length ≤ s.cfg.ibufMax := by have := h.input_fits; omega
    exact { h with input_fits := hfits }
  | frameBuild _ old content how some_content within room =>
    refine h.storeFrame ?_ some_content within room
    rcases how with ⟨-, hold, -⟩ | ⟨-, hold, -⟩ | ⟨-, hold, -⟩ | ⟨-, hold, -⟩
    · exact .inl hold
    · exact .inr hold
    · exact .inl hold
    · exact .inr hold
  | lclr => exact { h with list_fits := listHolds_zero _, chunk_sizes := nofun, list_frames := .nil }
  | pxscan full => exact { h with scan_valid := scanValid_storeScan full, pack_valid := .inl ⟨rfl, rfl⟩ }
  | pxpack scanned => exact { h with pack_valid := packValid_storePack scanned h.scan_valid.palsize_le }
  | pxemit packed room =>
    have hlen : (s.ibuf ++ paletteBlock s).length = s.ilen + (1 + 3 * s.palsize + s.pklen) := by
      rw [List.length_append, paletteBlock_length, State.ilen]
    exact { h with input_fits := hlen.trans_le room }

theorem Did.inv {s t : State} {i : Instr} (did : Did s i t) (h : Inv s) : Inv t := by
  cases did with
  | ignored => exact h.complete
  | errclr => exact { h with error_code := iff_of_true rfl rfl, error_info := fun _ => rfl }
  | srst => exact (inv_clearAll h.parameters).complete
  | raised _ r => exact (h.raiseFault r).complete
  | wrote _ u _ w => exact (w.inv h).complete

theorem Accessed.inv {s t : State} {op : HostOp} (acc : Accessed s op t) (h : Inv s) : Inv t := by
  cases acc with
  | reset => exact inv_resetInput h.parameters
  | _ => exact { h with }

/-- Settles O53, by each thing a step can do. -/
theorem stepKeepsTheInvariants : Obligations.StepKeepsTheInvariants := by
  intro s t h hstep
  cases moved_of_step hstep with
  | idle => exact h
  | ran _ _ _ _ _ did => exact did.inv h
  | illegalIgnored => exact h.complete
  | illegalRaised => exact (h.raiseFault _).complete
  | access _ _ _ _ _ acc => exact acc.inv { h with }

end Sys2Proof.Machine
end

section
/-! PROOFS. Running a command (spec 10 R25, 20 R56), into and out of the error state (60 R231 to R237), and which
command writes what (10 R21, R33; 43 R154). -/

namespace Sys2Proof.Machine

/-! ### The latched command -/

theorem step_eq_exec {s : State} {i : Instr} (hbusy : s.busy = true) (hfree : CommandUndisturbed s)
    (hword : decode s.cmd = .ok i) : step s = exec i s := by
  rw [step_eq_runLatched hbusy hfree, runLatched, hword]

/-- A latched command has no access in its way. -/
theorem commandUndisturbed_latchCommand (s : State) (w : Half) : CommandUndisturbed (latchCommand s w) := by
  intro ev hev
  have hhead := List.head?_dropWhile_not (·.overlap) s.hostQueue
  rw [latchCommand_hostQueue] at hev
  rw [Option.mem_def.mp hev] at hhead
  exact hhead

/-- The 16 bits of a word, fetched, are the word. -/
theorem withFetchWord_toNat (s : State) (w : Half) : s.withFetchWord 16 w.toNat = latchCommand s w := by
  rw [State.withFetchWord, Nat.mod_eq_of_lt w.isLt, BitVec.ofNat_toNat, BitVec.setWidth_eq]

/-- Settles O5: the fetch word latches the encoding, which decodes to the command. -/
theorem stepRunsTheLatchedCommand : Obligations.StepRunsTheLatchedCommand := by
  refine ⟨fun s i => step_eq_exec, fun s i _ => ?_⟩
  rw [withFetchWord_toNat]
  exact step_eq_exec rfl (commandUndisturbed_latchCommand s _) (decode_encode i)

/-- R25, U1: a write of `CMD` that does not wait for the running command is the model's stop. -/
theorem step_cmdWrite_of_busy {s : State} {port : RegPort} {v : Word} {rest : List HostEvent} (hbusy : s.busy = true)
    (hport : portRegister s.cfg port = some 0) (hqueue : s.hostQueue = ⟨true, .write port v⟩ :: rest) :
    step s = .fault .cmdWriteWhileBusy := by
  rw [step_eq_hostAct_of_turn hqueue (.inr rfl)]
  simp [hostAct, hostWrite, hport, hbusy]

/-- Settles O9: both writes are the access next in turn, and register 0 is the latch. -/
theorem cmdWriteLatchesAndStarts : Obligations.CmdWriteLatchesAndStarts :=
  ⟨fun _ _ _ _ _ => step_cmdWrite, fun _ _ _ _ => step_cmdWrite_of_busy, fun _ => rfl, readReg_reset 0⟩

/-- R61: what a read returns, where it is defined (U2). -/
theorem hostRead_readData_of_defined {s : State} {k : Nat} (h : s.busy = false ∨ k = 0 ∨ k = 1) :
    (hostRead k s).readData = readReg s k := by
  rw [hostRead_readData]
  rcases h with hidle | rfl | rfl
  · simp [hidle]
  · simp
  · simp

/-- Settles O22: the read is the access next in turn, and `hostRead` writes the model's own two fields only. -/
theorem readsHaveNoSideEffect : Obligations.ReadsHaveNoSideEffect := by
  intro s ov port k rest hqueue hport hturn
  refine ⟨hostRead k { s with hostQueue := rest }, ?_, rfl, rfl, fun hdefined => ?_⟩
  · rw [step_eq_hostAct_of_turn hqueue hturn]
    simp [hostAct, hport]
  · exact hostRead_readData_of_defined (s := { s with hostQueue := rest }) hdefined

/-! ### Into and out of the error state -/

/-- Settles O8, by `exec_of_err`. -/
theorem errorStopIgnoresCommands : Obligations.ErrorStopIgnoresCommands :=
  fun _ _ => exec_of_err

/-- R234: the two ways a step enters the error state are one fault entry, of a command or of an illegal word. -/
theorem Moved.raised {s t : State} (m : Moved s t) (hok : s.err = false) (herr : t.err = true) :
    s.busy = true ∧ ∃ r, t = complete (raiseFault r s) := by
  cases m with
  | idle => simp [hok] at herr
  | ran _ _ run _ _ did =>
    cases did with
    | ignored => simp [hok] at herr
    | errclr | srst => cases herr
    | raised _ r => exact ⟨run, r, rfl⟩
    | wrote _ u _ w => simp [w.err, hok] at herr
  | illegalIgnored => simp [hok] at herr
  | illegalRaised _ run => exact ⟨run, _, rfl⟩
  | access ev rest _ _ _ acc =>
    obtain ⟨ov, op⟩ := ev
    cases acc with
    | reset => cases herr
    | _ => simp [hok] at herr

/-- Settles O18: the fault entry writes the three error fields, and its code is one of R231. -/
theorem faultEntryWritesNothingElse : Obligations.FaultEntryWritesNothingElse := by
  intro s t hstep hok herr
  obtain ⟨hbusy, r, rfl⟩ := (moved_of_step hstep).raised hok herr
  obtain ⟨hmin, hmax⟩ := r.1.code_bounds
  exact ⟨hbusy, r.1.code, word32 r.2, hmin, hmax, rfl⟩

/-- A command whose effect is no fault and leaves `ERR` clear ends with `ERR` clear. -/
theorem err_of_command_ok {s t u : State} (hok : s.err = false) (hu : u.err = false)
    (hrun : command s (.ok u) = .next t) : t.err = false := by
  rw [command_ok u hok] at hrun
  cases hrun
  exact hu

/-- Settles O19: two of these commands clear `ERR`, and the effect of each other is no fault. -/
theorem faultFreeCommands : Obligations.FaultFreeCommands := by
  rintro i s t (rfl | rfl | rfl | rfl | rfl | ⟨b, rfl⟩ | rfl | rfl) hok hrun
  · exact err_of_command_ok (u := s) hok hok hrun
  · cases hrun; rfl
  · cases hrun; rfl
  · exact err_of_command_ok (u := { s with ibuf := [] }) hok hok hrun
  · exact err_of_command_ok (u := { s with acc := 0 }) hok hok hrun
  · exact err_of_command_ok (u := { s with acc := accStep s.acc b }) hok hok hrun
  · exact err_of_command_ok (u := { s with acc := sum16 s.ibuf }) hok hok hrun
  · exact err_of_command_ok (u := { s with oml := [] }) hok hok hrun

/-- Settles O20, by each thing a step can do while `ERR = 1`. -/
theorem errorStateLeftOnlyByAcknowledgement : Obligations.ErrorStateLeftOnlyByAcknowledgement := by
  intro s t hstep herr
  cases moved_of_step hstep with
  | idle | illegalIgnored => exact .inl ⟨herr, rfl, rfl⟩
  | illegalRaised _ _ _ _ ok => simp [herr] at ok
  | ran i _ run _ word did =>
    have hword : encode i = s.cmd := encode_of_decode word
    cases did with
    | ignored => exact .inl ⟨herr, rfl, rfl⟩
    | errclr => exact .inr ⟨rfl, .inl ⟨run, .inl hword.symm⟩⟩
    | srst => exact .inr ⟨rfl, .inl ⟨run, .inr hword.symm⟩⟩
    | raised _ _ ok | wrote _ _ ok => simp [herr] at ok
  | access ev rest _ queue _ acc =>
    obtain ⟨ov, op⟩ := ev
    cases acc with
    | reset => exact .inr ⟨rfl, .inr ⟨ov, rest, queue⟩⟩
    | _ => exact .inl ⟨herr, rfl, rfl⟩

/-! ### Which command writes what -/

/-- What the command left different is what the spec has it write. -/
def OnlyWriters (i : Instr) (s t : State) : Prop :=
  (t.acc ≠ s.acc → writesAcc i = true) ∧ (t.len ≠ s.len → writesLen i = true) ∧
  (t.ibuf ≠ s.ibuf → writesIbuf i = true) ∧ (t.oml ≠ s.oml → writesOml i = true) ∧
  (t.pal ≠ s.pal ∨ t.idx ≠ s.idx → writesScan i = true) ∧
  (t.bitw ≠ s.bitw ∨ t.pkbuf ≠ s.pkbuf → writesPack i = true) ∧
  (t.wsel ≠ s.wsel ∨ t.wchunk ≠ s.wchunk ∨ t.waddr ≠ s.waddr → i = .srst)

theorem Wrote.onlyWriters {s u : State} {i : Instr} (w : Wrote s i u) : OnlyWriters i s u := by
  cases w with
  | frameBuild _ old content how =>
    rcases how with ⟨rfl, -⟩ | ⟨rfl, -⟩ | ⟨rfl, -⟩ | ⟨rfl, -⟩ <;>
      simp [OnlyWriters, writesAcc, writesLen, writesOml]
  | _ => simp [OnlyWriters, writesAcc, writesIbuf, writesOml, writesScan, writesPack]

/-- Settles O51: a void or faulting command and `ERRCLR` write none of these, `SRST` is among all writers, and a
performed command writes its own. -/
theorem onlyNamedWritersChangeState : Obligations.OnlyNamedWritersChangeState := by
  intro i s t hexec
  cases did_of_exec hexec with
  | srst => exact ⟨fun _ => rfl, fun _ => rfl, fun _ => rfl, fun _ => rfl, fun _ => rfl, fun _ => rfl, fun _ => rfl⟩
  | wrote _ u _ w => exact w.onlyWriters
  | ignored | errclr | raised => simp

end Sys2Proof.Machine
end

section
/-! PROOFS. Registers and the read window (spec 10 R23, R24, R32): `STATUS` bit by bit, what the other registers read
under the invariants, what writes of them do, and the window for each selector. -/

namespace Sys2Proof.Machine

/-! ### Reading registers -/

/-- R23, by the three parts `STATUS` is put together from. -/
theorem status_getLsbD (s : State) (i : Nat) :
    s.status.getLsbD i = ((decide (i = 0) && s.busy) || (decide (i = 1) && s.err)) := by
  rw [State.status, BitVec.getLsbD_append, BitVec.getLsbD_append]
  match i with
  | 0 => simp
  | 1 => simp
  | j + 2 => simp

/-- Settles O21: register 1 is `STATUS`. -/
theorem statusShowsTheTwoFlags : Obligations.StatusShowsTheTwoFlags := status_getLsbD

/-- R11: a number that fits its 32-bit register reads as it is. -/
theorem word32_toNat {n : Nat} (h : n < 2 ^ 32) : (word32 n).toNat = n := by
  rw [word32, if_pos h, BitVec.toNat_ofNat, Nat.mod_eq_of_lt h]

/-- A count of at most 256 fits the 9 bits of its register (R24). -/
theorem nineBits_toNat {n : Nat} (h : n ≤ 256) : ((BitVec.ofNat 9 n).setWidth 32).toNat = n := by
  rw [BitVec.toNat_setWidth_of_le (by decide), BitVec.toNat_ofNat, Nat.mod_eq_of_lt (by omega)]

theorem PackValid.pklen_le {s : State} (h : PackValid s) : s.pklen ≤ 256 := by
  rcases h with ⟨-, hpack⟩ | ⟨-, hmax, hlen, -⟩
  · simp [State.pklen, hpack]
  · omega

/-! ### Writing registers -/

/-- R24: a write of any other register is ignored. -/
theorem hostWrite_of_ignored {k : Nat} (v : Word) (s : State) (hcmd : k ≠ 0) (hwsel : k ≠ 11) (hwchunk : k ≠ 12)
    (hwaddr : k ≠ 13) : hostWrite k v s = .next s := by
  rcases hostWrite_cases k v s with ⟨h, -⟩ | ⟨h, -⟩ | ⟨h, -⟩ | ⟨h, -⟩ | ⟨h, -⟩ | ⟨-, -, -, -, h⟩
  · exact absurd h hcmd
  · exact absurd h hcmd
  · exact absurd h hwsel
  · exact absurd h hwchunk
  · exact absurd h hwaddr
  · exact h

/-- R24: `WSEL` keeps the three low bits. -/
theorem setWidth_three (v : Word) : (v.setWidth 3).setWidth 32 = v &&& 0x00000007 := by
  apply BitVec.eq_of_toNat_eq
  rw [BitVec.toNat_setWidth_of_le (by decide), BitVec.toNat_setWidth, BitVec.toNat_and]
  exact (Nat.and_two_pow_sub_one_eq_mod v.toNat 3).symm

/-- A write of a register other than `CMD` does not look at `BUSY` (log entry 7). -/
theorem hostWrite_busy {s : State} {k : Nat} (v : Word) (hbusy : s.busy = true) (hcmd : k ≠ 0) :
    ∃ t, hostWrite k v { s with busy := false } = .next t ∧ hostWrite k v s = .next { t with busy := true } := by
  obtain ⟨cmd, busy⟩ := s
  obtain rfl : busy = true := hbusy
  by_cases hwsel : k = 11
  · subst hwsel; exact ⟨_, rfl, rfl⟩
  by_cases hwchunk : k = 12
  · subst hwchunk; exact ⟨_, rfl, rfl⟩
  by_cases hwaddr : k = 13
  · subst hwaddr; exact ⟨_, rfl, rfl⟩
  exact ⟨_, hostWrite_of_ignored v _ hcmd hwsel hwchunk hwaddr, hostWrite_of_ignored v _ hcmd hwsel hwchunk hwaddr⟩

/-! ### Where registers are -/

theorem portRegister_address (c : Config) (k : Nat) : portRegister c (.address (c.regBase + 4 * k)) = some k := by
  rw [portRegister, if_pos (by omega)]
  congr 1
  omega

theorem portRegister_of_no_address {c : Config} {a : Nat} (h : ∀ k, a ≠ c.regBase + 4 * k) :
    portRegister c (.address a) = none := by
  refine if_neg fun hreg => h ((a - c.regBase) / 4) ?_
  omega

/-- Settles O23, the reads by the widths and the invariants, the writes by `hostWrite`, the rest by the map. -/
theorem registerMapAccess : Obligations.RegisterMapAccess := by
  refine ⟨fun s h => ⟨?errcode, rfl, ?acc, ?len, word32_toNat, word32_toNat, nineBits_toNat h.scan_valid.palsize_le,
      ?bitw, nineBits_toNat h.pack_valid.pklen_le⟩,
    fun s k v _ => hostWrite_of_ignored v s, fun s v _ => ⟨_, rfl, rfl, setWidth_three v⟩,
    fun s v _ => ⟨_, rfl, rfl, rfl⟩, fun s v _ => ⟨_, rfl, rfl, rfl⟩, fun s k v => hostWrite_busy v,
    fun s k => readReg_of_sixteen_le s, portRegister_address, fun c a => portRegister_of_no_address⟩
  all_goals exact BitVec.toNat_setWidth_of_le (by decide)

/-! ### The window (R32) -/

theorem window_of_space {s : State} {sp : Space} (h : windowSpace s = some sp) :
    windowLength s = (s.bytes sp).length ∧ windowByte s = (s.bytes sp)[s.waddr.toNat]? := by
  simp [windowLength, windowByte, h, State.byteAt]

theorem window_of_none {s : State} (h : windowSpace s = none) : windowLength s = 0 ∧ windowByte s = none := by
  simp [windowLength, windowByte, h]

/-- The selected byte exists exactly below `WLEN`. -/
theorem windowByte_eq_none_iff (s : State) : windowByte s = none ↔ windowLength s ≤ s.waddr.toNat := by
  cases h : windowSpace s with
  | none =>
    obtain ⟨hlen, hbyte⟩ := window_of_none h
    simp [hlen, hbyte]
  | some sp =>
    obtain ⟨hlen, hbyte⟩ := window_of_space h
    rw [hlen, hbyte, List.getElem?_eq_none_iff]

/-- The reserved selectors select nothing (U9). -/
theorem windowSpace_of_reserved {s : State} (h : 5 ≤ s.wsel.toNat) : windowSpace s = none := by
  unfold windowSpace
  split
  case h_6 => rfl
  all_goals omega

/-- Byte `a` of colours in stored order is byte `a mod 3` of colour `a div 3` (R28). -/
theorem flatMap_bytes_getElem? (pal : List Color) (a : Nat) :
    (pal.flatMap Color.bytes)[a]? = (pal[a / 3]?).bind fun c => [c.c0, c.c1, c.c2][a % 3]? := by
  induction pal generalizing a with
  | nil => rfl
  | cons c pal ih =>
    rw [List.flatMap_cons]
    match a with
    | 0 => rfl
    | 1 => rfl
    | 2 => rfl
    | a + 3 =>
      have hskip : (c.bytes ++ pal.flatMap Color.bytes)[a + 3]? = (pal.flatMap Color.bytes)[a]? := rfl
      rw [hskip, ih, Nat.add_div_right a (by decide), Nat.add_mod_right]
      rfl

theorem ScanValid.idx_length {s : State} (h : ScanValid s) : s.idx.length = if 1 ≤ s.palsize then 256 else 0 := by
  rcases h with ⟨hpal, hidx⟩ | ⟨hpos, -, -, hlen, -⟩
  · simp [State.palsize, hpal, hidx]
  · rw [if_pos hpos, hlen]

/-- The fields of `WDATA` (R24 no. 15). -/
theorem windowWord_fields (b : Byte) :
    (windowWord b).extractLsb' 0 8 = b ∧ (windowWord b).extractLsb' 8 8 = hexchar (b.toNat / 16) ∧
      (windowWord b).extractLsb' 16 8 = hexchar (b.toNat % 16) ∧ (windowWord b).extractLsb' 24 7 = 0 ∧
      (windowWord b).getLsbD 31 = true := by
  unfold windowWord
  generalize hexchar (b.toNat / 16) = hi, hexchar (b.toNat % 16) = lo
  refine ⟨BitVec.extractLsb'_append_eq_right, ?_, ?_, ?_, ?_⟩
  · rw [BitVec.extractLsb'_append_eq_of_le (by decide)]
    exact BitVec.extractLsb'_append_eq_right
  · rw [BitVec.extractLsb'_append_eq_of_le (by decide), BitVec.extractLsb'_append_eq_of_le (by decide)]
    exact BitVec.extractLsb'_append_eq_right
  · rw [BitVec.extractLsb'_append_eq_of_le (by decide), BitVec.extractLsb'_append_eq_of_le (by decide),
      BitVec.extractLsb'_append_eq_of_le (by decide)]
    exact BitVec.extractLsb'_append_eq_right
  · simp only [BitVec.getLsbD_append]
    rfl

/-- Settles O24: the object of each selector by `windowSpace`, `WDATA` by whether there is a selected byte. -/
theorem windowReadsTheSelectedByte : Obligations.WindowReadsTheSelectedByte := by
  intro s h
  refine ⟨fun hsel => ?ibuf, fun hsel => ⟨fun hin => ?chunk, fun hout => ?absent⟩, fun hsel => ?pal, fun hsel => ?idx,
    fun hsel => ?pkbuf, fun hsel => window_of_none (windowSpace_of_reserved hsel), fun hin => ?valid, fun hout => ?zero,
    word32_toNat⟩
  case ibuf => exact window_of_space (sp := .ibuf) (by simp [windowSpace, hsel])
  case chunk =>
    have hspace : windowSpace s = some (.oml s.wchunk.toNat) := by simp [windowSpace, hsel]
    have hchunk : s.oml[s.wchunk.toNat]? = some s.oml[s.wchunk.toNat] := List.getElem?_eq_getElem hin
    have hbytes : s.bytes (.oml s.wchunk.toNat) = s.oml[s.wchunk.toNat] := by
      simp [State.bytes, hchunk]
    exact ⟨_, hchunk, hbytes ▸ window_of_space hspace⟩
  case absent =>
    have hspace : windowSpace s = some (.oml s.wchunk.toNat) := by simp [windowSpace, hsel]
    have hbytes : s.bytes (.oml s.wchunk.toNat) = [] := by
      simp [State.bytes, List.getElem?_eq_none hout]
    obtain ⟨hlen, hbyte⟩ := window_of_space hspace
    rw [hlen, hbyte, hbytes]
    exact ⟨rfl, rfl⟩
  case pal =>
    obtain ⟨hlen, hbyte⟩ := window_of_space (s := s) (sp := .pal) (by simp [windowSpace, hsel])
    exact ⟨hlen.trans (length_flatMap_bytes s.pal), hbyte.trans (flatMap_bytes_getElem? s.pal _)⟩
  case idx =>
    obtain ⟨hlen, hbyte⟩ := window_of_space (s := s) (sp := .idx) (by simp [windowSpace, hsel])
    exact ⟨hlen.trans h.scan_valid.idx_length, hbyte⟩
  case pkbuf => exact window_of_space (sp := .pkbuf) (by simp [windowSpace, hsel])
  case valid =>
    obtain ⟨b, hb⟩ := Option.ne_none_iff_exists'.mp (mt (windowByte_eq_none_iff s).mp hin.not_ge)
    have hdata : readReg s 15 = windowWord b := by rw [readReg, windowData, hb]
    rw [hdata]
    exact ⟨b, hb, windowWord_fields b⟩
  case zero =>
    have hnone : windowByte s = none := (windowByte_eq_none_iff s).mpr hout
    rw [readReg, windowData, hnone]

end Sys2Proof.Machine
end

section
/-! PROOFS. The four `BUILD` commands (spec 42 R130 to R138, 60 R233): the content each mode reads, clause by clause,
the frame it stores, its faults, and a raw-mode command on the converted buffer (40 R97). -/

namespace Sys2Proof.Machine

/-! ### The content (R93, R130) -/

theorem hexContent_of_odd {s : State} (hodd : s.ilen % 2 = 1) : hexContent s = .error (.oddhex, s.ilen) := if_pos hodd

theorem hexContent_of_long {s : State} (heven : s.ilen % 2 = 0) (hlong : s.cfg.contentMax < s.ilen / 2) :
    hexContent s = .error (.toolong, s.ilen / 2) := by
  rw [hexContent, if_neg (by omega), if_pos hlong]

/-- Of an even-length text within the limit the content is the hex reading. -/
theorem hexContent_eq_hexOperand {s : State} (heven : s.ilen % 2 = 0) (hfits : s.ilen / 2 ≤ s.cfg.contentMax) :
    hexContent s = hexOperand s := by
  rw [hexContent, if_neg (by omega), if_neg hfits.not_gt]

theorem hexContent_of_hex2b {s : State} {content : List Byte} (htext : hex2b s.ibuf = some content)
    (hfits : content.length ≤ s.cfg.contentMax) : hexContent s = .ok content := by
  have hlen : s.ilen = 2 * content.length := hex2b_length htext
  rw [hexContent_eq_hexOperand (by omega) (by omega), hexOperand_of_hex2b htext]

theorem rawContent_of_long {s : State} (hlong : s.cfg.contentMax < s.ilen) :
    rawContent s = .error (.toolong, s.ilen) := if_pos hlong

theorem rawContent_of_fits {s : State} (hfits : s.ilen ≤ s.cfg.contentMax) : rawContent s = .ok s.ibuf :=
  if_neg hfits.not_gt

/-! ### The commands as `build` -/

theorem exec_hexBuild (append : Bool) (s : State) :
    exec (if append then .bldaH else .bldrH) s = command s (build append false s) := by
  cases append <;> rfl

theorem exec_rawBuild (append : Bool) (s : State) :
    exec (if append then .bldaR else .bldrR) s = command s (build append true s) := by
  cases append <;> rfl

theorem build_eq_error {append raw : Bool} {s : State} {r : Raise} (hfull : s.ilen ≠ 0)
    (hcontent : buildContent raw s = .error r) : build append raw s = .error r := by
  rw [build, if_neg hfull, hcontent]

/-- R146: a frame of `n` content bytes has `(n + 671) div 666` chunks, which come after those kept. -/
theorem builtCount (append : Bool) (s : State) (content : List Byte) :
    (if append then s.oml else []).length + (chunks (frame content)).length =
      (if append then s.ocnt else 0) + (content.length + 671) / 666 := by
  rw [chunks_length, frame_length]
  cases append <;> rfl

/-- R130, R132, R133: what a build of this content leaves when the list can hold its chunks. -/
theorem command_build_of_room {append raw : Bool} {s : State} {content : List Byte} (herr : s.err = false)
    (hfull : s.ilen ≠ 0) (hcontent : buildContent raw s = .ok content)
    (hroom : listHolds s.cfg ((if append then s.ocnt else 0) + (content.length + 671) / 666) = true) :
    command s (build append raw s) = .next
      { s with
        busy := false, len := BitVec.ofNat 16 (content.length + 2),
        acc := sum16 (le16 (content.length + 2) ++ content),
        oml := (if append then s.oml else []) ++ chunks (frame content) } := by
  rw [← builtCount] at hroom
  rw [build_eq_placeFrame hfull hcontent, placeFrame_of_listHolds hroom]
  exact command_ok _ herr

/-- R153: the list cannot hold the chunks. -/
theorem command_build_of_no_room {append raw : Bool} {s : State} {content : List Byte} (herr : s.err = false)
    (hfull : s.ilen ≠ 0) (hcontent : buildContent raw s = .ok content)
    (hroom : listHolds s.cfg ((if append then s.ocnt else 0) + (content.length + 671) / 666) = false) :
    command s (build append raw s) =
      .next (faultState s 0x06 ((if append then s.ocnt else 0) + (content.length + 671) / 666)) := by
  rw [← builtCount] at hroom
  rw [build_eq_placeFrame hfull hcontent, ← builtCount]
  rcases placeFrame_cases s (if append then s.oml else []) content with ⟨hheld, -⟩ | ⟨-, hplace⟩
  · simp [hroom] at hheld
  · rw [hplace]
    exact command_error_eq_faultState .listfull _ herr

theorem command_build_of_error {append raw : Bool} {s : State} {code : ErrCode} {info : Nat} (herr : s.err = false)
    (hfull : s.ilen ≠ 0) (hcontent : buildContent raw s = .error (code, info)) :
    command s (build append raw s) = .next (faultState s code.code info) := by
  rw [build_eq_error hfull hcontent]
  exact command_error_eq_faultState code info herr

/-- Settles O32: both commands are `build` in hex mode, whose content is the bytes of the text. -/
theorem hexBuildStoresOneFrame : Obligations.HexBuildStoresOneFrame := by
  intro s content herr hfull htext hfits
  have hcontent : buildContent false s = .ok content := hexContent_of_hex2b htext hfits
  exact ⟨fun hroom => command_build_of_room (append := false) herr hfull hcontent (by simpa using hroom),
    fun hroom => command_build_of_room (append := true) herr hfull hcontent hroom⟩

/-- Settles O33: both commands are `build` in raw mode, whose content is the octets. -/
theorem rawBuildStoresOneFrame : Obligations.RawBuildStoresOneFrame := by
  intro s herr hfull hfits
  have hcontent : buildContent true s = .ok s.ibuf := rawContent_of_fits hfits
  exact ⟨fun hroom => command_build_of_room (append := false) herr hfull hcontent (by simpa [State.ilen] using hroom),
    fun hroom => command_build_of_room (append := true) herr hfull hcontent hroom⟩

/-- Settles O35, clause by clause of the content, and by the list where the content is read. -/
theorem buildFaultPriority : Obligations.BuildFaultPriority := by
  intro s append herr hfull
  simp only [exec_hexBuild, exec_rawBuild]
  refine ⟨fun hodd => ?odd, fun heven hlong => ?long, fun i heven hfits hbad => ?bad,
    fun content total htext hfits htotal hroom => ?full, fun hlong => ?rawLong,
    fun total hfits htotal hroom => ?rawFull⟩
  case odd => exact command_build_of_error (raw := false) herr hfull (hexContent_of_odd hodd)
  case long => exact command_build_of_error (raw := false) herr hfull (hexContent_of_long heven hlong)
  case bad =>
    have hcontent : hexContent s = .error (.badhex, i) :=
      (hexContent_eq_hexOperand heven hfits).trans (hexOperand_of_firstNonHex heven hbad)
    exact command_build_of_error (raw := false) herr hfull hcontent
  case full =>
    subst htotal
    exact command_build_of_no_room (raw := false) herr hfull (hexContent_of_hex2b htext hfits) hroom
  case rawLong => exact command_build_of_error (raw := true) herr hfull (rawContent_of_long hlong)
  case rawFull =>
    subst htotal
    exact command_build_of_no_room (raw := true) herr hfull (rawContent_of_fits hfits) hroom

/-! ### Raw mode on the converted buffer (R97) -/

/-- The state with this input and nothing running, as a conversion leaves it. -/
def withInput (content : List Byte) (s : State) : State := { s with busy := false, ibuf := content }

/-- A conversion that leaves `ERR` clear has read the text. -/
theorem converted_of_ih2b {s t : State} (herr : s.err = false) (hrun : exec .ih2b s = .next t) (hok : t.err = false) :
    ∃ content, hex2b s.ibuf = some content ∧ t = withInput content s := by
  rcases hexOperand_cases s with ⟨-, he⟩ | ⟨-, -, he⟩ | ⟨content, htext, -, -⟩
  · obtain rfl := eq_of_exec hrun (exec_ih2b_of_error herr he)
    cases hok
  · obtain rfl := eq_of_exec hrun (exec_ih2b_of_error herr he)
    cases hok
  · exact ⟨content, htext, eq_of_exec hrun (exec_ih2b_of_hex2b herr htext)⟩

/-- The same effect on the state with the other input: the same answer but for the input, faults and error-stop
included. -/
theorem command_withInput (content : List Byte) (s : State) (e : Except Raise State) :
    ∃ u v, command s e = .next u ∧ command (withInput content s) (e.map (withInput content)) = .next v ∧
      v = { u with ibuf := content } := by
  refine ⟨_, _, rfl, rfl, ?_⟩
  have hstop : (withInput content s).err = s.err := rfl
  rw [hstop]
  cases s.err <;> cases e <;> rfl

theorem placeFrame_withInput (s : State) (old : List (List Byte)) (content : List Byte) :
    placeFrame (withInput content s) old content = (placeFrame s old content).map (withInput content) := by
  have hcfg : (withInput content s).cfg = s.cfg := rfl
  rw [placeFrame, placeFrame, hcfg]
  split <;> rfl

/-- The raw build of the converted text has the effect of the hex build of the text. -/
theorem build_withInput {s : State} {content : List Byte} (append : Bool) (htext : hex2b s.ibuf = some content) :
    build append true (withInput content s) = (build append false s).map (withInput content) := by
  have hlen : s.ilen = 2 * content.length := hex2b_length htext
  have hconv : (withInput content s).ilen = content.length := rfl
  by_cases hempty : s.ilen = 0
  · rw [build_of_empty _ _ hempty, build_of_empty _ _ (by omega)]
    rfl
  have hfull : (withInput content s).ilen ≠ 0 := by omega
  rcases Nat.lt_or_ge s.cfg.contentMax content.length with hlong | hfits
  · have hhex : buildContent false s = .error (.toolong, content.length) := by
      have hhalf : s.ilen / 2 = content.length := by omega
      exact hhalf ▸ hexContent_of_long (by omega) (by omega)
    have hraw : buildContent true (withInput content s) = .error (.toolong, content.length) := rawContent_of_long hlong
    rw [build_eq_error hempty hhex, build_eq_error hfull hraw]
    rfl
  · have hhex : buildContent false s = .ok content := hexContent_of_hex2b htext hfits
    have hraw : buildContent true (withInput content s) = .ok content := rawContent_of_fits hfits
    rw [build_eq_placeFrame hempty hhex, build_eq_placeFrame hfull hraw]
    exact placeFrame_withInput s _ content

/-- Settles O42: on the converted buffer each raw-mode command has the effect of its hex-mode one. -/
theorem convertThenRawEqualsHex : Obligations.ConvertThenRawEqualsHex := by
  intro s t append herr hrun hok
  obtain ⟨content, htext, rfl⟩ := converted_of_ih2b herr hrun hok
  constructor
  · rw [exec_hexBuild, exec_rawBuild, build_withInput append htext]
    exact command_withInput content s (build append false s)
  · have hhex : exec .crchex s = command s (.ok { s with acc := sum16 content }) :=
      (exec_crchex_of_hex2b herr htext).trans (command_ok { s with acc := sum16 content } herr).symm
    rw [hhex]
    exact command_withInput content s (.ok { s with acc := sum16 content })

end Sys2Proof.Machine
end

section
/-! PROOFS. Where `PXPACK` puts every index bit, for either order of a packed byte (spec 44 R170 to R177, U5), and
what the appending commands leave alone (20 R66). -/

namespace Sys2Proof.Machine

/-! ### The width (R170) -/

/-- R170: no smaller width is enough. -/
theorem bitw_le_of_le_two_pow {p v : Nat} (hpos : 1 ≤ v) (henough : p ≤ 2 ^ v) : bitw p ≤ v := by
  have hsearch : [1, 2, 3, 4, 5, 6, 7] = List.range' 1 7 := rfl
  rw [bitw, hsearch]
  by_contra hless
  split at hless
  next w hfind =>
    obtain ⟨-, -, hsmaller⟩ := List.find?_range'_eq_some.mp hfind
    have hv := hsmaller v hpos (by omega)
    simp [henough] at hv
  next hnone =>
    have hv := List.find?_range'_eq_none.mp hnone v hpos (by omega)
    simp [henough] at hv

/-! ### The bits of a packed byte (R172, R177) -/

/-- R177: the other reading packs a full group as D21 packs the reversed group. -/
theorem packGroup_true {group : List Bool} (hfull : group.length = 8) :
    packGroup true group = packGroup false group.reverse := by
  simp [packGroup, padGroup, hfull]

/-- R172, U5: bit `t` of a full group is bit `t` of its byte, or bit `7 - t` in the other reading. -/
theorem getElem?_group {group : List Bool} (hfull : group.length = 8) (msbFirst : Bool) {t : Nat} (ht : t < 8) :
    group[t]? = some ((packGroup msbFirst group).getLsbD (if msbFirst then 7 - t else t)) := by
  have hlsb {bits : List Bool} (hbits : bits.length = 8) {j : Nat} (hj : j < 8) :
      bits[j]? = some ((packGroup false bits).getLsbD j) := by
    have hbit := indexBits_getElem? hj (packGroup false bits)
    rwa [indexBits_packGroup hbits] at hbit
  cases msbFirst with
  | false => exact hlsb hfull ht
  | true =>
    have hrev := hlsb (group.length_reverse.trans hfull) (j := 7 - t) (by omega)
    rw [List.getElem?_reverse (by omega), hfull] at hrev
    rw [packGroup_true hfull, if_pos rfl, ← hrev]
    congr 1
    omega

/-- Bit `p` of the stream is bit `p mod w` of index `p div w` (R171). -/
theorem indexStream_getElem?_div {w : Nat} (hw : 0 < w) (idx : List Byte) (p : Nat) :
    (indexStream w idx)[p]? = idx[p / w]?.map fun b => b.getLsbD (p % w) := by
  have hbit := indexStream_getElem? (Nat.mod_lt p hw) idx (p / w)
  rwa [Nat.div_add_mod] at hbit

/-- R175 for either reading: where stream bit `8 g + t` stands in the packed bytes. -/
theorem pack_bit {w : Nat} {idx : List Byte} (msbFirst : Bool) (hw : 0 < w) (hfull : idx.length = 256) {g t : Nat}
    (hg : g < 32 * w) (ht : t < 8) :
    ∃ b k, (pack msbFirst w idx)[g]? = some b ∧ idx[(8 * g + t) / w]? = some k ∧
      b.getLsbD (if msbFirst then 7 - t else t) = k.getLsbD ((8 * g + t) % w) := by
  have hin : (8 * g + t) / w < idx.length := by rw [hfull, Nat.div_lt_iff_lt_mul hw]; omega
  have hstream : (indexStream w idx).length = 8 * (32 * w) := by rw [indexStream_length, hfull]; omega
  have hgroup : (((indexStream w idx).drop (8 * g)).take 8).length = 8 := by
    rw [List.length_take, List.length_drop, hstream]; omega
  have hbyte : (pack msbFirst w idx)[g]? = some (packGroup msbFirst (((indexStream w idx).drop (8 * g)).take 8)) := by
    rw [pack, List.getElem?_map, cut_getElem? hg]
    rfl
  refine ⟨_, _, hbyte, List.getElem?_eq_getElem hin, ?_⟩
  have hbit := getElem?_group hgroup msbFirst ht
  rw [List.getElem?_take_of_lt ht, List.getElem?_drop, indexStream_getElem?_div hw,
    List.getElem?_eq_getElem hin] at hbit
  exact (Option.some.inj hbit).symm

/-- Settles O46: without a scan the command faults, with one the width is `bitw` of the palette and the bytes `pack`. -/
theorem pxpackPlacesEveryIndexBit : Obligations.PxpackPlacesEveryIndexBit := by
  refine fun s herr => ⟨fun hnone => ?_, fun hpos hmax hgrid => ?_⟩
  · change execPxpack s = _
    rw [execPxpack, if_pos hnone]
    exact command_error_eq_faultState .noscan 0 herr
  · have hwpos : 1 ≤ bitw s.palsize := bitw_pos s.palsize
    exact ⟨bitw s.palsize, pack s.cfg.packMsbFirst (bitw s.palsize) s.idx,
      exec_pxpack_of_scanned herr (Nat.ne_of_gt hpos), hwpos, bitw_le _, le_two_pow_bitw hmax,
      fun v => bitw_le_of_le_two_pow, pack_length .., fun g hg t ht => pack_bit _ hwpos hgrid hg ht⟩

/-! ### Appending (R66 (a)) -/

@[simp] theorem complete_byteAt (s : State) (sp : Space) (a : Nat) : (complete s).byteAt sp a = s.byteAt sp a := by
  cases sp <;> rfl

@[simp] theorem raiseFault_byteAt (r : Raise) (s : State) (sp : Space) (a : Nat) :
    (raiseFault r s).byteAt sp a = s.byteAt sp a := by
  cases sp <;> rfl

/-- An append changes no byte outside those it stores at offset `ILEN` of `IBUF`. -/
theorem ibufAppend_byteAt {s : State} {v : List Byte} {sp : Space} {a : Nat}
    (hout : sp ≠ .ibuf ∨ a < s.ilen ∨ s.ilen + v.length ≤ a) : (s.ibufAppend v).byteAt sp a = s.byteAt sp a := by
  cases sp with
  | ibuf =>
    have hbytes : (s.ibufAppend v).byteAt .ibuf a = (s.ibuf ++ v)[a]? := by rw [ibufAppend_eq]; rfl
    rw [hbytes]
    rcases hout with hne | hbefore | hafter
    · exact absurd rfl hne
    · exact List.getElem?_append_left hbefore
    · have hnone : s.ibuf[a]? = none := List.getElem?_eq_none (le_of_add_le_left hafter)
      rw [List.getElem?_eq_none (by rw [List.length_append]; exact hafter)]
      exact hnone.symm
  | _ => rfl

/-- The same for a command whose only effect but a fault is that append. -/
theorem byteAt_of_appending {s t : State} {e : Except Raise State} {v : List Byte} (hrun : command s e = .next t)
    (heffect : ∀ u, e = .ok u → u = s.ibufAppend v) {sp : Space} {a : Nat}
    (hout : sp ≠ .ibuf ∨ a < s.ilen ∨ s.ilen + v.length ≤ a) : t.byteAt sp a = s.byteAt sp a := by
  rcases command_cases hrun with ⟨-, rfl⟩ | ⟨-, u, he, rfl⟩ | ⟨-, r, -, rfl⟩
  · rw [complete_byteAt]
  · rw [complete_byteAt, heffect u he, ibufAppend_byteAt hout]
  · rw [complete_byteAt, raiseFault_byteAt]

/-- Settles O50: the two commands append one octet and the palette block. -/
theorem appendingCommandsKeepOtherBytes : Obligations.AppendingCommandsKeepOtherBytes := by
  rintro s t i n (⟨b, rfl, rfl⟩ | ⟨rfl, rfl⟩) hrun sp a hout
  · refine byteAt_of_appending (v := [b]) hrun (fun u hu => ?_) hout
    split at hu <;> cases hu
    rfl
  · refine byteAt_of_appending (v := paletteBlock s) hrun (fun u hu => ?_) (by rwa [paletteBlock_length])
    split at hu
    · cases hu
    · split at hu <;> cases hu
      rfl

end Sys2Proof.Machine
end

section
/-! PROOFS. The serial frame builder and chunker (spec 42 R134, 43 R147) against the frame's chunks, and the host's
temperature byte (46 R207). -/

namespace Sys2Proof.Machine

/-! ### Chunks from the front (R145) -/

/-- A whole chunk in front is the first one. -/
theorem chunks_append {piece : List Byte} (hwhole : piece.length = chunkBytes) (rest : List Byte) :
    chunks (piece ++ rest) = piece :: chunks rest := by
  have hcount : chunkCount (piece ++ rest).length = chunkCount rest.length + 1 := by
    rw [List.length_append, hwhole]
    unfold chunkCount chunkBytes
    omega
  rw [chunks, hcount, cut, List.take_left' hwhole, List.drop_left' hwhole]
  rfl

/-- A short rest is one chunk, if it is not empty. -/
theorem chunks_of_short {f : List Byte} (hshort : f.length < chunkBytes) :
    chunks f = if 1 ≤ f.length then [f] else [] := by
  unfold chunkBytes at hshort
  split
  next hpos =>
    have hcount : chunkCount f.length = 1 := by unfold chunkCount chunkBytes; omega
    have hall : f.take chunkBytes = f := List.take_of_length_le hshort.le
    rw [chunks, hcount, cut, cut, hall]
  next hzero =>
    obtain rfl : f = [] := List.length_eq_zero_iff.mp (by omega)
    rfl

/-! ### The serial chunker (R147) -/

/-- A byte that fills the open chunk closes it. -/
theorem chunkUnitStep_close {closed : List (List Byte)} {current : List Byte} {b : Byte}
    (hfilled : (current ++ [b]).length = chunkBytes) :
    chunkUnitStep ⟨closed, current, current.length⟩ b = ⟨closed ++ [current ++ [b]], [], 0⟩ :=
  if_pos ((List.length_append ..).symm.trans hfilled)

/-- Any other byte stays in the open chunk. -/
theorem chunkUnitStep_open {closed : List (List Byte)} {current : List Byte} {b : Byte}
    (hopen : (current ++ [b]).length ≠ chunkBytes) :
    chunkUnitStep ⟨closed, current, current.length⟩ b = ⟨closed, current ++ [b], (current ++ [b]).length⟩ := by
  rw [List.length_append] at hopen ⊢
  exact if_neg hopen

/-- From an open chunk the unit gives the closed chunks, then the chunks of the open one with what follows. -/
theorem finish_foldl_chunkUnitStep (f : List Byte) : ∀ (closed : List (List Byte)) {current : List Byte},
    current.length < chunkBytes →
    (f.foldl chunkUnitStep ⟨closed, current, current.length⟩).finish = closed ++ chunks (current ++ f) := by
  induction f with
  | nil =>
    intro closed current hshort
    rw [List.append_nil, chunks_of_short hshort, List.foldl_nil, ChunkUnit.finish]
    split <;> simp
  | cons b f ih =>
    intro closed current hshort
    rw [List.foldl_cons, List.append_cons]
    by_cases hfilled : (current ++ [b]).length = chunkBytes
    · have hrest := ih (closed ++ [current ++ [b]]) (current := []) (by decide)
      rw [chunkUnitStep_close hfilled, chunks_append hfilled]
      simpa using hrest
    · have hlength : (current ++ [b]).length = current.length + 1 := List.length_append ..
      have hstill : (current ++ [b]).length < chunkBytes := by omega
      rw [chunkUnitStep_open hfilled, ih closed hstill]

/-- R147: the unit cuts any bytes as R145 does. -/
theorem finish_chunkUnit (f : List Byte) : (f.foldl chunkUnitStep ChunkUnit.start).finish = chunks f :=
  finish_foldl_chunkUnitStep f [] (current := []) (by decide)

/-! ### The serial frame builder (R134) -/

/-- Phases P1 to P3: every byte is summed, counted and handed to the chunker. -/
theorem foldl_emitSummed (bytes : List Byte) (u : FrameUnit) : bytes.foldl emitSummed u =
    ⟨bytes.foldl accStep u.acc, u.pos + bytes.length, bytes.foldl chunkUnitStep u.out⟩ := by
  induction bytes generalizing u with
  | nil => rfl
  | cons b bytes ih =>
    rw [List.foldl_cons, ih, List.length_cons, Nat.add_comm bytes.length, ← Nat.add_assoc]
    rfl

/-- R134: after phase P6 the unit has summed LENGTH and CONTENT and emitted the frame. -/
theorem frameUnitRun_eq (content : List Byte) : frameUnitRun content =
    ⟨frameCrc content, content.length + 6, (frame content).foldl chunkUnitStep ChunkUnit.start⟩ := by
  have hsummed : content.foldl emitSummed
      (emitSummed (emitSummed (emitByte ⟨0, 0, ChunkUnit.start⟩ framePrefix)
        (BitVec.ofNat 8 (frameLength content % 256))) (BitVec.ofNat 8 (frameLength content / 256))) =
      ⟨frameCrc content, 3 + content.length,
        (framePrefix :: le16 (frameLength content) ++ content).foldl chunkUnitStep ChunkUnit.start⟩ := by
    rw [foldl_emitSummed, frameCrc, sum16_eq_foldl]
    rfl
  have hcount : content.length + 6 = 3 + content.length + 3 := by omega
  rw [frameUnitRun, hsummed, hcount]
  conv_rhs => rw [frame, List.append_assoc, List.foldl_append]
  rfl

/-- Settles O55: the builder emits the frame into the chunker, which cuts any bytes into their chunks. -/
theorem serialFrameUnitBuildsTheChunks : Obligations.SerialFrameUnitBuildsTheChunks := by
  refine ⟨finish_chunkUnit, fun content => ?_⟩
  rw [frameUnitRun_eq]
  exact ⟨finish_chunkUnit (frame content), rfl, rfl⟩

/-! ### The temperature byte (R207) -/

/-- In range the byte is the temperature modulo 256. -/
theorem tempByte_of_range {temp : Int} (hmin : -127 ≤ temp) (hmax : temp ≤ 128) :
    ∃ b, tempByte temp = .ok b ∧ (b.toNat : Int) = temp % 256 := by
  refine ⟨_, if_pos ⟨hmin, hmax⟩, ?_⟩
  rw [BitVec.toNat_ofNat]
  split <;> omega

theorem tempByte_of_out_of_range {temp : Int} (hout : temp < -127 ∨ 128 < temp) :
    tempByte temp = .error .invalidRange := if_neg (by omega)

theorem range_of_tempByte_ok {temp : Int} {b : Byte} (h : tempByte temp = .ok b) :
    -127 ≤ temp ∧ temp ≤ 128 ∧ (b.toNat : Int) = temp % 256 := by
  by_cases hout : temp < -127 ∨ 128 < temp
  · rw [tempByte_of_out_of_range hout] at h
    cases h
  · obtain ⟨c, hc, hmod⟩ := tempByte_of_range (temp := temp) (by omega) (by omega)
    cases h.symm.trans hc
    exact ⟨by omega, by omega, hmod⟩

/-- Settles O57: the range has 256 temperatures, so equal remainders are equal temperatures. -/
theorem temperatureByteIsModulo256 : Obligations.TemperatureByteIsModulo256 := by
  refine ⟨fun temp => tempByte_of_range, fun temp => tempByte_of_out_of_range, fun x y b hx hy => ?_⟩
  have hxrange := range_of_tempByte_ok hx
  have hyrange := range_of_tempByte_ok hy
  omega

end Sys2Proof.Machine
end
